-- ==== Sys2Proof/Word.lean ====
section
/-! DEFINITION. The word types of the pms7003 protocol block: bytes, 16-bit wire quantities and times
(00_scope.md R6, R8, R9). -/

namespace Sys2Proof

/-- A byte, an unsigned 8-bit value (R8). -/
abbrev Byte := BitVec 8

/-- A 16-bit quantity of the wire: a data field or a checksum (R53, R73, R74). -/
abbrev Word16 := BitVec 16

/-- A timestamp or a duration: an unsigned integer of `TW` = 32 bits (R6, R9). -/
abbrev Time := BitVec 32

/-- The 32 bytes a successful receive returns (R174: "`b` exactly 32 bytes"). -/
abbrev Frame32 := { b : List Byte // b.length = 32 }

end Sys2Proof
end

