-- ==== Sys2Proof/Config.lean ====
section
/-! DEFINITION. What an instance is made with (00_scope.md R6, 10_state.md R26), the closed enumerations it
speaks of, and the free values the environment chooses (43_scheduler.md R173 to R176). -/

namespace Sys2Proof

/-- The five commands, in the source's order (R30, R77). -/
inductive Command where
  | sleep | wakeUp | activeMode | passiveMode | readPassiveRequest
deriving DecidableEq, Repr, Inhabited

/-- The session's configured mode (R11, R26). -/
inductive Mode where
  | passive | active
deriving DecidableEq, Repr, Inhabited

/-- One entry of the opcode ROM: the three opcode and argument bytes, in wire order (R50 c, R52). -/
structure OpEntry where
  b0 : Byte
  b1 : Byte
  b2 : Byte
deriving DecidableEq, Repr, Inhabited

/-- The entries of the opcode ROM that are parameters, `OPC[0]` to `OPC[3]` (R26, D5).
`OPC[4]` is fixed by the source and is no parameter (R75). -/
structure OpcodeRom where
  sleep : OpEntry
  wakeUp : OpEntry
  activeMode : OpEntry
  passiveMode : OpEntry
deriving DecidableEq, Repr, Inhabited

/-- What `Send`, `Discard` and `Record` answer (R173, R175, R176). -/
inductive OutAnswer where
  | ok | ioError
deriving DecidableEq, Repr, Inhabited

/-- What `Recv` answers (R174). -/
inductive RxAnswer where
  | timeoutError
  | ioError
  | bytes (b : Frame32)
deriving DecidableEq, Repr, Inhabited

/-- The configuration record of one instance (R26), which no operation writes. -/
structure Config where
  /-- `MODE`. -/
  mode : Mode
  /-- `SI`, `samplingInterval`. -/
  si : Time
  /-- `WD`, `warmupDuration`. -/
  wd : Time
  /-- `RETRY_MAX`, of `RW` = 8 bits. -/
  retryMax : BitVec 8
  /-- `RX_DEADLINE`, opaque: handed to every receive (D26). -/
  rxDeadline : Nat
  /-- `WAKE_SEQ[passive]`. -/
  wakeSeqPassive : List Command
  /-- `WAKE_SEQ[active]`. -/
  wakeSeqActive : List Command
  /-- `INIT_SEQ[passive]`. -/
  initSeqPassive : List Command
  /-- `INIT_SEQ[active]`. -/
  initSeqActive : List Command
  /-- `OPC[0]` to `OPC[3]`. -/
  opc : OpcodeRom
  /-- `LABEL`, opaque: handed to every `Record` (D28). -/
  label : String
  /-- `TIME_UNIT`, opaque: no rule reads it (D6). -/
  timeUnit : Nat
deriving DecidableEq, Repr, Inhabited

/-- FREE VALUE (R173, R175, R176; 93 U13; log 5): what the environment answers to the output call
number `k`, where the script of answers in the state ends before it. -/
opaque Config.freeOut : Nat → OutAnswer

/-- FREE VALUE (R174; 93 U13; log 5): what the environment answers to the receive number `k`, where
the script of answers in the state ends before it. -/
opaque Config.freeRx : Nat → RxAnswer

/-- PRESUMED (log 2): the default bytes of `OPC[0]` to `OPC[3]`, from general knowledge (30_encoding.md R75,
93 GK1). Unsafe: a claim about these bytes is a claim about the default only. -/
def OpcodeRom.default : OpcodeRom where
  sleep := ⟨0xE4, 0x00, 0x00⟩
  wakeUp := ⟨0xE4, 0x00, 0x01⟩
  activeMode := ⟨0xE1, 0x00, 0x01⟩
  passiveMode := ⟨0xE1, 0x00, 0x00⟩

/-- DESIGN CHOICE and PRESUMED (logs 1 to 3): the configuration the machine has after `State.reset`. `SI` and
`WD` are the values of the source's own tests (95 S4, S5), `RETRY_MAX`, `WAKE_SEQ`, `INIT_SEQ` and `TIME_UNIT`
the defaults R6 suggests. Unsafe: nothing may be proved from it. -/
def Config.default : Config where
  mode := .passive
  si := 30
  wd := 20
  retryMax := 3
  rxDeadline := 0
  wakeSeqPassive := [.wakeUp, .passiveMode]
  wakeSeqActive := [.wakeUp]
  initSeqPassive := []
  initSeqActive := []
  opc := OpcodeRom.default
  label := ""
  timeUnit := 1

end Sys2Proof
end

