-- ==== Sys2Proof/Syntax.lean ====
section
/-! DEFINITION. The instructions: one constructor per row of spec/opcode_table.json (30_encoding.md R70, R75,
R76), and the words they arrive as: a host operation with its operand ports, an outbound CMD7 frame, an inbound
DATA32 frame. -/

namespace Sys2Proof

/-- The opcode table's rows. -/
inductive Instr where
  /-- `SLEEP` (R102). -/
  | sleep
  /-- `WAKEUP` (R103). -/
  | wakeUp
  /-- `ACTIVE` (R104). -/
  | active
  /-- `PASSIVE` (R105). -/
  | passive
  /-- `READ` (R106). -/
  | read
  /-- `DATA` (R72, R120): the thirty bytes after the two sync bytes, checksum included, and the time port. -/
  | data (now : Time) (body : List Byte)
  /-- `NOP` (R180). -/
  | nop
  /-- `TICK now` (R160). -/
  | tick (now : Time)
  /-- `PARSE now, b` (R120): a byte sequence of any length. -/
  | parse (now : Time) (b : List Byte)
  /-- `ENCODE cmd` (R100): a 3-bit command code (R77). -/
  | encode (cmd : BitVec 3)
  /-- `RESET now0` (R230). -/
  | reset (now0 : Time)
deriving DecidableEq, Repr, Inhabited

/-- The host's ports: the reset input, the operation code and the operands that travel beside it
(R76, 10_state.md R36). -/
structure HostPort where
  rst : Bool
  op : BitVec 2
  now : Time
  cmd : BitVec 3
  bytes : List Byte
deriving DecidableEq, Repr, Inhabited

/-- What is presented to the block: a host operation, or a wire word of the direction that tells CMD7
from DATA32 (R70; logs 7 and 8). -/
inductive Request where
  | host (p : HostPort)
  | outbound (frame : List Byte)
  | inbound (now : Time) (frame : List Byte)
deriving DecidableEq, Repr, Inhabited

/-- The six errors of 60_exceptions.md R200. -/
inductive Err where
  | frameTooShort | badSync | checksumMismatch | invalidModeError | ioError | timeoutError
deriving DecidableEq, Repr, Inhabited

/-- Why seven outbound bytes are no command of the session's ROM (R71, R75, R78; log 11). -/
inductive CommandError where
  | notSevenBytes | badPrefix | badChecksum | unknownOpcode
deriving DecidableEq, Repr, Inhabited

/-- Why a request decodes to no instruction: it is no command, or no frame (R78). -/
inductive DecodeError where
  | notACommand (why : CommandError)
  | notAFrame (why : Err)
deriving DecidableEq, Repr, Inhabited

end Sys2Proof
end

