-- ==== Sys2Proof/Machine/Operands.lean ====
section
/-! DEFINITION. Every operand form and every piece of data arithmetic: bytes of a sequence, big-endian pairs,
the additive checksum, command codes and frames, the opcode ROM, the codes of modes and errors. -/

namespace Sys2Proof

/-- `b[i]` (R8). The 0 past the end is never looked at: every use follows a length check (log 18). -/
def byteAt (b : List Byte) (i : Nat) : Byte := b.getD i 0

/-- `be16(h, l) = 256*h + l` (R9, R53). -/
def be16 (h l : Byte) : Word16 := h ++ l

/-- `hi8(v) = (v >> 8) & 0xFF` (R9). -/
def hi8 (v : Word16) : Byte := v.extractLsb' 8 8

/-- `lo8(v) = v & 0xFF` (R9). -/
def lo8 (v : Word16) : Byte := v.extractLsb' 0 8

/-- `MemRead(FB, i, 2)`: two bytes as one big-endian unsigned value (R63). -/
def memRead2 (b : List Byte) (i : Nat) : Word16 := be16 (byteAt b i) (byteAt b (i + 1))

/-- `CKSUM16(p)`: the sum of the bytes, by a 16-bit accumulator cleared at the start whose natural wrap
is the "mod 65536" (R73, R124). -/
def cksum16 (p : List Byte) : Word16 := p.foldl (fun acc x => acc + x.setWidth 16) 0

/-- The first sync byte, also the first prefix byte of a command (R6, R71). -/
def sync0 : Byte := 0x42

/-- The second sync byte, also the second prefix byte of a command (R6, R71). -/
def sync1 : Byte := 0x4D

/-- The five commands in the order of their codes (R77). -/
def Command.all : List Command := [.sleep, .wakeUp, .activeMode, .passiveMode, .readPassiveRequest]

/-- The 3-bit code of a command (R77). -/
def Command.code : Command → BitVec 3
  | .sleep => 0
  | .wakeUp => 1
  | .activeMode => 2
  | .passiveMode => 3
  | .readPassiveRequest => 4

/-- The command a code selects; codes 5, 6 and 7 select nothing (R77). -/
def Command.ofCode (c : BitVec 3) : Option Command :=
  Command.all.find? (fun k => k.code == c)

/-- `OPC[c]` (R75): the session's parameters, and `E2 00 00`, fixed by the source, for
`ReadPassiveRequest`. -/
def OpcodeRom.entry (rom : OpcodeRom) : Command → OpEntry
  | .sleep => rom.sleep
  | .wakeUp => rom.wakeUp
  | .activeMode => rom.activeMode
  | .passiveMode => rom.passiveMode
  | .readPassiveRequest => ⟨0xE2, 0x00, 0x00⟩

/-- The five bytes of a command before its checksum (R71, R100). -/
def commandHead (rom : OpcodeRom) (c : Command) : List Byte :=
  [sync0, sync1, (rom.entry c).b0, (rom.entry c).b1, (rom.entry c).b2]

/-- `Enc(c)`: the seven bytes of a command, the big-endian checksum last (R71, R100). -/
def commandFrame (rom : OpcodeRom) (c : Command) : List Byte :=
  commandHead rom c ++ [hi8 (cksum16 (commandHead rom c)), lo8 (cksum16 (commandHead rom c))]

/-- The 1-bit encoding of `MODE` (R26). -/
def Mode.code : Mode → BitVec 1
  | .passive => 0
  | .active => 1

/-- The 3-bit code of an error; 0 is "none" and 7 is never produced (60_exceptions.md R200). -/
def Err.code : Err → BitVec 3
  | .frameTooShort => 1
  | .badSync => 2
  | .checksumMismatch => 3
  | .invalidModeError => 4
  | .ioError => 5
  | .timeoutError => 6

/-- The class of an error: protocol (true) or transport (false) (60_exceptions.md R200). -/
def Err.isProtocol : Err → Bool
  | .frameTooShort => true
  | .badSync => true
  | .checksumMismatch => true
  | .invalidModeError => true
  | .ioError => false
  | .timeoutError => false

/-- `WAKE_SEQ[MODE]` (R164). -/
def Config.wakeSeq (cfg : Config) : List Command :=
  match cfg.mode with
  | .passive => cfg.wakeSeqPassive
  | .active => cfg.wakeSeqActive

/-- `INIT_SEQ[MODE]` (R230). -/
def Config.initSeq (cfg : Config) : List Command :=
  match cfg.mode with
  | .passive => cfg.initSeqPassive
  | .active => cfg.initSeqActive

end Sys2Proof
end

