-- ==== Sys2Proof/Machine/State.lean ====
section
/-! DEFINITION. The state: the four registers and the event history (10_state.md R21), the two hidden buffers
(R31), the configuration (R26), and the model's own fields: the result ports, the operations the host presents
and the environment's answers. Then the reset state (R33). -/

namespace Sys2Proof.Machine

open Sys2Proof

/-- `ST`, the state tag of the scheduler: a three-constructor type, the fourth code left out (R22). -/
inductive St where
  | dormant | warmingUp | sampling
deriving DecidableEq, Repr, Inhabited

/-- The 2-bit encoding of `ST` (R21). -/
def St.code : St → BitVec 2
  | .dormant => 0
  | .warmingUp => 1
  | .sampling => 2

/-- `res`, the result of a TICK; codes 6 and 7 are never produced (43_scheduler.md R178). -/
inductive Res where
  | idle | started | warmed | reading | retrying | failed
deriving DecidableEq, Repr, Inhabited

/-- The 3-bit code of `res` (R178). -/
def Res.code : Res → BitVec 3
  | .idle => 0
  | .started => 1
  | .warmed => 2
  | .reading => 3
  | .retrying => 4
  | .failed => 5

/-- A Reading (R29, R144): the twelve fields under the names of R141, `TS`, `COUNT` in 17 bits two's complement
(R142) and `EST10` in 13 bits two's complement (R143). -/
structure Reading where
  pm1_0_cf : Word16
  pm2_5_cf : Word16
  pm10_cf : Word16
  pm1_0_atm : Word16
  pm2_5_atm : Word16
  pm10_atm : Word16
  n0_3 : Word16
  n0_5 : Word16
  n1_0 : Word16
  n2_5 : Word16
  n5_0 : Word16
  n10 : Word16
  count : BitVec 17
  est10 : BitVec 13
  ts : Time
deriving DecidableEq, Repr, Inhabited

/-- `F[0]` to `F[11]`, in the declared order (R141). -/
def Reading.fields (r : Reading) : List Word16 :=
  [r.pm1_0_cf, r.pm2_5_cf, r.pm10_cf, r.pm1_0_atm, r.pm2_5_atm, r.pm10_atm,
   r.n0_3, r.n0_5, r.n1_0, r.n2_5, r.n5_0, r.n10]

/-- The kinds of event of the history (R32): each primitive call with its arguments and, for `Recv`, the answer
(log 14). -/
inductive Event where
  /-- `TX(bytes)`, a `Send`. -/
  | tx (bytes : List Byte)
  /-- `RX(answer)`, a `Recv` of `n` bytes under a deadline. -/
  | rx (n : Nat) (deadline : Nat) (answer : RxAnswer)
  /-- `FLUSH`, a `Discard`. -/
  | flush
  /-- `REC(reading, label)`, a `Record`. -/
  | record (reading : Reading) (label : String)
deriving DecidableEq, Repr, Inhabited

/-- What an operation returns (R76, R178; log 10). -/
inductive Result where
  /-- NOP and RESET return nothing. -/
  | none
  /-- `(res, err, ioerr)` of a TICK, and the Reading with `res` = READING. -/
  | tick (res : Res) (err : Option Err) (ioerr : Bool) (reading : Option Reading)
  /-- The Reading of a PARSE. -/
  | parsed (reading : Reading)
  /-- The seven bytes of an ENCODE. -/
  | frame (bytes : List Byte)
  /-- The error of a PARSE or an ENCODE. -/
  | error (e : Err)
deriving DecidableEq, Repr, Inhabited

/-- A byte array: the bytes that have been written, addresses strictly rising. An unlisted offset has no value
(R33 "unspecified after reset"; log 9). -/
abbrev Memory := List Host.Cell

/-- The canonical form: addresses strictly rising. An unlisted offset has no value, so no entry can equal one. -/
abbrev Memory.wf (m : Memory) : Prop := m.Pairwise (fun c d => c.1 < d.1)

/-- Every listed address is below `n`: 32 for `FB`, 7 for `TXB` (R50). -/
abbrev Memory.within (n : Nat) (m : Memory) : Prop := ∀ c ∈ m, c.1 < n

/-- The machine's state. -/
structure State where
  /-- `ST` (R22). -/
  st : St
  /-- `LSA`, `lastSampleAt` (R23). -/
  lsa : Time
  /-- `LTO`, `lastTurnOnAt` (R23). -/
  lto : Time
  /-- `RETRY`, of `RW` = 8 bits (R24). -/
  retry : BitVec 8
  /-- The event history, oldest first (R32). -/
  history : List Event
  /-- `FB`, the frame buffer (R31, R50 a; log 9). -/
  fb : Memory
  /-- `TXB`, the transmit buffer (R31, R50 b; log 9). -/
  txb : Memory
  /-- The configuration, written by no operation (R26; log 1). -/
  cfg : Config
  /-- MODEL's field: the result ports of the last operation (log 10). -/
  result : Result
  /-- MODEL's field: what is presented to the block next, oldest first (log 6). -/
  pending : List Request
  /-- MODEL's field: the environment's answers to `Send`, `Discard` and `Record`, in call order (log 5). -/
  outScript : List OutAnswer
  /-- MODEL's field: how many of those calls have been made (log 5). -/
  outCalls : Nat
  /-- MODEL's field: the environment's answers to `Recv`, in call order (log 5). -/
  rxScript : List RxAnswer
  /-- MODEL's field: how many receives have been made (log 5). -/
  rxCalls : Nat
deriving DecidableEq, Repr, Inhabited

/-- No operation stops the machine: "no error condition in this core is fatal" (60_exceptions.md R200, R210), and no
rule produces an offset outside a buffer (20_memory.md R63). So there is no fault to raise, and the type has no
constructor (log 19). Safe: a claim that no fault occurs is what the spec says. -/
inductive Fault : Type
deriving DecidableEq, Repr

/-- The reasons a step is refused. -/
inductive Refusal where
  /-- Raised by an arm of `exec` whose instruction has no meaning yet; no arm raises it. Safe: it stops where the
  hardware goes on. -/
  | notModelled (mnemonic : String)
  /-- Raised by the step where the presented outbound word is no command frame of the session's ROM. The spec has no
  such word: "there is no illegal `CMD7`, because the block builds every one it sends" (30_encoding.md R78; log 11).
  Safe: it stops, and nothing is proved of what follows. -/
  | notACommand (why : CommandError)
deriving DecidableEq, Repr

/-- The machine right after reset (R33, log 13): RESET with `now0` = 0 under the default configuration, whose
`INIT_SEQ` is empty, so that the history is empty. -/
def State.reset : State where
  st := .dormant
  lsa := 0
  lto := 0
  retry := 0
  history := []
  fb := []
  txb := []
  cfg := Config.default
  result := .none
  pending := []
  outScript := []
  outCalls := 0
  rxScript := []
  rxCalls := 0

end Sys2Proof.Machine
end

