-- ==== Sys2Proof/Machine/Ops.lean ====
section
/-! DEFINITION. The named operations over the buffers, the result ports and the environment: memory reads and
writes (20_memory.md R63, R64), an error's delivery (60_exceptions.md R209), and the four primitives of
43_scheduler.md R173 to R177. -/

namespace Sys2Proof.Machine

open Sys2Proof

/-- `MemRead(m, a, 1)` (R63): the byte at an offset, none where nothing has been written. -/
def Memory.read : Memory → Nat → Option Byte
  | [], _ => none
  | (k, v) :: r, a => if k = a then some v else Memory.read r a

/-- `MemWrite(m, a, 1, v)` (R63): the byte at its place in the rising order. -/
def Memory.write : Memory → Nat → Byte → Memory
  | [], a, v => [(a, v)]
  | (k, w) :: r, a, v =>
    if a < k then (a, v) :: (k, w) :: r
    else if a = k then (a, v) :: r
    else (k, w) :: Memory.write r a v

/-- Bytes written at rising offsets from `a`, in arrival order (R64). -/
def Memory.writeFrom : Memory → Nat → List Byte → Memory
  | m, _, [] => m
  | m, a, v :: r => Memory.writeFrom (Memory.write m a v) (a + 1) r

/-- The bytes a buffer holds, in the order of their offsets. -/
def Memory.bytes (m : Memory) : List Byte := m.map Prod.snd

/-- A buffer filled whole: what it held before is not kept, and byte 0 goes to offset 0 (R64). -/
def Memory.fill (b : List Byte) : Memory := Memory.writeFrom [] 0 b

/-- An operation returns its result (R178, log 10). -/
def State.deliver (r : Result) (s : State) : State := { s with result := r }

/-- What an error of PARSE or ENCODE does: the code is returned and nothing else changes. No register saves anything,
no mode changes, control goes nowhere, and there is no return from it (60_exceptions.md R209, R210). -/
def State.raise (e : Err) (s : State) : State := s.deliver (.error e)

/-- The frame buffer filled with 32 bytes, the first to `FB[0]` (R50 a, R64). -/
def State.fillFrame (b : List Byte) (s : State) : State := { s with fb := Memory.fill b }

/-- The transmit buffer filled with `Enc(c)` (R50 b, R100). -/
def State.loadCommand (c : Command) (s : State) : State :=
  { s with txb := Memory.fill (commandFrame s.cfg.opc c) }

/-- What the environment answers to the output call number `k`: its script, and past the script's end a free value
(93 U13; log 5). -/
def State.outAnswer (s : State) (k : Nat) : OutAnswer := (s.outScript[k]?).getD (Config.freeOut k)

/-- What the environment answers to the receive number `k`, likewise (R174; log 5). -/
def State.rxAnswer (s : State) (k : Nat) : RxAnswer := (s.rxScript[k]?).getD (Config.freeRx k)

/-- An operation in progress: the state so far, and whether an output call of it has answered `IoError` (R177). -/
structure InOp where
  s : State
  ioerr : Bool
deriving DecidableEq, Repr

/-- An operation begins with `ioerr` = 0 (R160, R177). -/
def State.start (s : State) : InOp := { s := s, ioerr := false }

/-- An output call: its event goes to the end of the history, and the environment's answer is gathered into `ioerr`
and changes nothing else (R32, R177). -/
def InOp.call (e : Event) (p : InOp) : InOp where
  s := { p.s with history := p.s.history ++ [e], outCalls := p.s.outCalls + 1 }
  ioerr := p.ioerr || p.s.outAnswer p.s.outCalls == .ioError

/-- `Send(Enc(c))`: the encoder fills the transmit buffer, and its bytes are sent (R173, R50 b). -/
def InOp.sendCommand (c : Command) (p : InOp) : InOp :=
  InOp.call (.tx (p.s.loadCommand c).txb.bytes) { p with s := p.s.loadCommand c }

/-- One `Send` per command of a list, in list order (R164, R230). -/
def InOp.sendCommands : List Command → InOp → InOp
  | [], p => p
  | c :: cs, p => InOp.sendCommands cs (p.sendCommand c)

/-- `Discard()` (R175). -/
def InOp.discard (p : InOp) : InOp := p.call .flush

/-- `Record(reading, LABEL)` (R176). -/
def InOp.record (r : Reading) (p : InOp) : InOp := p.call (.record r p.s.cfg.label)

/-- What an answer puts into the frame buffer: the 32 bytes, or nothing (R50 a, R174). -/
def State.takeBytes (s : State) : RxAnswer → State
  | .bytes b => s.fillFrame b.val
  | .timeoutError => s
  | .ioError => s

/-- `Recv(32, RX_DEADLINE)`: the answer, and the state with its event in the history and its bytes in the frame
buffer (R174). -/
def State.recv (s : State) : RxAnswer × State :=
  let a := s.rxAnswer s.rxCalls
  let s1 := s.takeBytes a
  (a, { s1 with history := s1.history ++ [.rx 32 s1.cfg.rxDeadline a], rxCalls := s1.rxCalls + 1 })

end Sys2Proof.Machine
end

