-- ==== Sys2Proof/Machine/Encoder.lean ====
section
/-! DEFINITION. The command encoder (40_command_encoder.md): the operation ENCODE and the five commands it builds.
Nothing is sent: the encoder only returns the bytes (R100; log 7). -/

namespace Sys2Proof.Machine

open Sys2Proof

/-- The encoder builds a command in the transmit buffer and returns its seven bytes (R100, R50 b). -/
def State.buildCommand (c : Command) (s : State) : State :=
  (s.loadCommand c).deliver (.frame (s.loadCommand c).txb.bytes)

/-- `SLEEP`: result `Enc(0)` (R102). -/
def execSleep (s : State) : Host.Outcome State Fault Refusal := .next (s.buildCommand .sleep)

/-- `WAKEUP`: result `Enc(1)` (R103). -/
def execWakeUp (s : State) : Host.Outcome State Fault Refusal := .next (s.buildCommand .wakeUp)

/-- `ACTIVE`: result `Enc(2)` (R104). -/
def execActive (s : State) : Host.Outcome State Fault Refusal := .next (s.buildCommand .activeMode)

/-- `PASSIVE`: result `Enc(3)` (R105). -/
def execPassive (s : State) : Host.Outcome State Fault Refusal := .next (s.buildCommand .passiveMode)

/-- `READ`: result `Enc(4)` (R106). -/
def execRead (s : State) : Host.Outcome State Fault Refusal := .next (s.buildCommand .readPassiveRequest)

/-- `ENCODE cmd`: the command of the code, or `InvalidModeError` for codes 5 to 7, with no byte produced
(R100, R107). -/
def execEncode (cmd : BitVec 3) (s : State) : Host.Outcome State Fault Refusal :=
  match Command.ofCode cmd with
  | some c => .next (s.buildCommand c)
  | none => .next (s.raise .invalidModeError)

end Sys2Proof.Machine
end

