-- ==== Sys2Proof/Machine/Reset.lean ====
section
/-! DEFINITION. The operation RESET (70_reset_and_hazards.md R230, R231). -/

namespace Sys2Proof.Machine

open Sys2Proof

/-- The reset value of `LSA`: `now0` in passive mode, 0 in active mode (R33). -/
def resetLsa (m : Mode) (now0 : Time) : Time :=
  match m with
  | .passive => now0
  | .active => 0

/-- Every register takes its reset value, the history is emptied and the buffers lose their contents (R33, R230). The
configuration and the environment are not touched (R231). -/
def State.clear (now0 : Time) (s : State) : State :=
  { s with st := .dormant, lsa := resetLsa s.cfg.mode now0, lto := 0, retry := 0, history := [],
           fb := [], txb := [], result := .none }

/-- `RESET now0`: the registers and the history, then one `Send` for each command of `INIT_SEQ[MODE]`, the answers
ignored; no result (R230). -/
def execReset (now0 : Time) (s : State) : Host.Outcome State Fault Refusal :=
  .next (InOp.sendCommands s.cfg.initSeq (s.clear now0).start).s

end Sys2Proof.Machine
end

