-- ==== Sys2Proof/Machine/Codec.lean ====
section
/-! DEFINITION. The frame codec and the reading decoder (41_frame_codec.md, 42_reading_decoder.md): the operation
PARSE and the row DATA. -/

namespace Sys2Proof.Machine

open Sys2Proof

/-- `F[k]`, the big-endian pair at offset `4 + 2k` (R74, R140). -/
def frameField (b : List Byte) (k : Nat) : Word16 := memRead2 b (4 + 2 * k)

/-- `COUNT = F[6] − F[9]`, a mathematical difference: it does not wrap and is not clamped (R142). -/
def countOf (b : List Byte) : Int := (frameField b 6).toNat - (frameField b 9).toNat

/-- `EST10`, the integer nearest to `10·K·COUNT`, in the integer form R143 gives:
`floor((252866003·COUNT + 2^31) / 2^32)` with `floor` toward minus infinity. -/
def est10Of (count : Int) : Int := (252866003 * count + 2 ^ 31).fdiv (2 ^ 32)

/-- `Decode(now, b)` (R144): the Reading of a frame that has passed the checks. -/
def decodeReading (now : Time) (b : List Byte) : Reading where
  pm1_0_cf := frameField b 0
  pm2_5_cf := frameField b 1
  pm10_cf := frameField b 2
  pm1_0_atm := frameField b 3
  pm2_5_atm := frameField b 4
  pm10_atm := frameField b 5
  n0_3 := frameField b 6
  n0_5 := frameField b 7
  n1_0 := frameField b 8
  n2_5 := frameField b 9
  n5_0 := frameField b 10
  n10 := frameField b 11
  count := BitVec.ofInt 17 (countOf b)
  est10 := BitVec.ofInt 13 (est10Of (countOf b))
  ts := now

/-- `Parse(now, b)` (R120): length, sync and checksum, in that order, the first failure the one reported
(R121 to R123, R208). -/
def parseFrame (now : Time) (b : List Byte) : Except Err Reading :=
  if b.length ≠ 32 then .error .frameTooShort
  else if byteAt b 0 ≠ sync0 ∨ byteAt b 1 ≠ sync1 then .error .badSync
  else if cksum16 (b.take 30) ≠ memRead2 b 30 then .error .checksumMismatch
  else .ok (decodeReading now b)

/-- What a parse returns to the host (R76, R209). -/
def State.deliverParse (p : Except Err Reading) (s : State) : State :=
  match p with
  | .ok r => s.deliver (.parsed r)
  | .error e => s.raise e

/-- A byte sequence handed to the frame codec. The frame buffer is filled only with 32 bytes; the length check of any
other sequence fails first and the buffer is not used (R64, R120). -/
def parseBytes (now : Time) (b : List Byte) (s : State) : State :=
  if b.length = 32 then
    (s.fillFrame b).deliverParse (parseFrame now (s.fillFrame b).fb.bytes)
  else s.deliverParse (parseFrame now b)

/-- `PARSE now, b` (R120): no register is read or written, no primitive called. -/
def execParse (now : Time) (b : List Byte) (s : State) : Host.Outcome State Fault Refusal :=
  .next (parseBytes now b s)

/-- `DATA` (R72, R120, R144; log 8): the frame with these thirty bytes after its sync bytes is handed to the frame
codec. -/
def execData (now : Time) (body : List Byte) (s : State) : Host.Outcome State Fault Refusal :=
  .next (parseBytes now (sync0 :: sync1 :: body) s)

end Sys2Proof.Machine
end

