-- ==== Sys2Proof/Machine/Flags.lean ====
section
/-! DEFINITION. The conditions the block computes. It stores no flag (10_state.md R28): the two guards are wires,
recomputed at every TICK. -/

namespace Sys2Proof.Machine

open Sys2Proof

/-- One timestamp comparator: `(now - since > span) and (since >= other)`, over mathematical integers, the first
clause strict and the second not (R161, R162, R191). -/
def elapsed (now since span other : Time) : Bool :=
  decide ((now.toNat : Int) - since.toNat > span.toNat) && decide ((since.toNat : Int) ≥ other.toNat)

/-- `G_START = (now − LSA > SI) and (LSA ≥ LTO)` (R161). -/
def gStart (s : State) (now : Time) : Bool := elapsed now s.lsa s.cfg.si s.lto

/-- `G_WARM = (now − LTO > WD) and (LTO ≥ LSA)` (R162). -/
def gWarm (s : State) (now : Time) : Bool := elapsed now s.lto s.cfg.wd s.lsa

/-- Whether a failed attempt leaves retries: `RETRY < RETRY_MAX` (R169). -/
def retriesLeft (s : State) : Bool := decide (s.retry.toNat < s.cfg.retryMax.toNat)

end Sys2Proof.Machine
end

