-- ==== Sys2Proof/Machine/Scheduler.lean ====
section
/-! DEFINITION. The sampling scheduler (43_scheduler.md): TICK and NOP. -/

namespace Sys2Proof.Machine

open Sys2Proof

/-- A TICK whose guard is false: nothing is sent, no state changes, result IDLE (R163, R165). -/
def State.idle (s : State) : State := s.deliver (.tick .idle none false none)

/-- The edge Dormant to WarmingUp: the wake commands, then `LTO <- now`, then `ST <- WarmingUp` (R163, R164). -/
def startCycle (now : Time) (s : State) : State :=
  let p := InOp.sendCommands s.cfg.wakeSeq s.start
  { p.s with lto := now, st := .warmingUp, result := .tick .started none p.ioerr none }

/-- The read request of the edge into Sampling: `READ` in passive mode, nothing in active mode (R166). -/
def readRequest (p : InOp) : InOp :=
  match p.s.cfg.mode with
  | .passive => p.sendCommand .readPassiveRequest
  | .active => p

/-- The edge WarmingUp to Sampling: the read request, then `RETRY <- 0`, then `ST <- Sampling`; no receive in this
TICK (R165). -/
def enterSampling (s : State) : State :=
  let p := readRequest s.start
  { p.s with retry := 0, st := .sampling, result := .tick .warmed none p.ioerr none }

/-- The outcome of an attempt: the parse of the received bytes, or the transport's error (R167). -/
def attemptOutcome (now : Time) (a : RxAnswer) (s : State) : Except Err Reading :=
  match a with
  | .bytes _ => parseFrame now s.fb.bytes
  | .timeoutError => .error .timeoutError
  | .ioError => .error .ioError

/-- Success: Record, then SLEEP, then the state writes, result READING (R168). -/
def sampleDone (now : Time) (r : Reading) (s : State) : State :=
  let p := (s.start.record r).sendCommand .sleep
  { p.s with lsa := now, retry := 0, st := .dormant, result := .tick .reading none p.ioerr (some r) }

/-- The `Discard` of a failed attempt: once after a protocol error, not after a transport error (R169). -/
def discardAfter (e : Err) (p : InOp) : InOp := if e.isProtocol then p.discard else p

/-- Failure: the one shared effect of every error of an attempt (R169, 60_exceptions.md R209): the discard, then a retry
(R170) or exhaustion (R171). -/
def attemptFailed (e : Err) (s : State) : State :=
  let p := discardAfter e s.start
  if retriesLeft s then
    { p.s with retry := p.s.retry + 1, result := .tick .retrying (some e) p.ioerr none }
  else
    { p.s with retry := 0, st := .dormant, result := .tick .failed (some e) p.ioerr none }

/-- TICK in Dormant (R163). -/
def tickDormant (now : Time) (s : State) : State := if gStart s now then startCycle now s else s.idle

/-- TICK in WarmingUp (R165). -/
def tickWarmingUp (now : Time) (s : State) : State := if gWarm s now then enterSampling s else s.idle

/-- TICK in Sampling: exactly one attempt (R167). -/
def tickSampling (now : Time) (s : State) : State :=
  match attemptOutcome now s.recv.1 s.recv.2 with
  | .ok r => sampleDone now r s.recv.2
  | .error e => attemptFailed e s.recv.2

/-- `TICK now` (R160): reads `ST` and takes at most one edge. -/
def execTick (now : Time) (s : State) : Host.Outcome State Fault Refusal :=
  match s.st with
  | .dormant => .next (tickDormant now s)
  | .warmingUp => .next (tickWarmingUp now s)
  | .sampling => .next (tickSampling now s)

/-- `NOP` (R180): reads nothing, writes nothing, calls no primitive and returns nothing. -/
def execNop (s : State) : Host.Outcome State Fault Refusal := .next (s.deliver .none)

end Sys2Proof.Machine
end

