-- ==== Sys2Proof/Machine/Dispatch.lean ====
section
/-! DEFINITION. One arm per constructor of `Instr`, each a direct call of its meaning. -/

namespace Sys2Proof.Machine

open Sys2Proof

def exec (i : Instr) (s : State) : Host.Outcome State Fault Refusal :=
  match i with
  | .sleep => Sys2Proof.Machine.execSleep s
  | .wakeUp => Sys2Proof.Machine.execWakeUp s
  | .active => Sys2Proof.Machine.execActive s
  | .passive => Sys2Proof.Machine.execPassive s
  | .read => Sys2Proof.Machine.execRead s
  | .data now body => Sys2Proof.Machine.execData now body s
  | .nop => Sys2Proof.Machine.execNop s
  | .tick now => Sys2Proof.Machine.execTick now s
  | .parse now b => Sys2Proof.Machine.execParse now b s
  | .encode cmd => Sys2Proof.Machine.execEncode cmd s
  | .reset now0 => Sys2Proof.Machine.execReset now0 s

end Sys2Proof.Machine
end

