-- ==== Sys2Proof/WellFormed.lean ====
section
/-! DEFINITION. Which instructions the encodings can carry. -/

namespace Sys2Proof

/-- A DATA32 frame has thirty bytes after its sync bytes (30_encoding.md R72, R79). Every other operand
is bounded by its type: times by `TW` bits, `cmd` by 3 bits, the operand of PARSE not at all (R76). -/
def Instr.WellFormed : Instr → Bool
  | .data _ body => body.length == 30
  | .sleep => true
  | .wakeUp => true
  | .active => true
  | .passive => true
  | .read => true
  | .nop => true
  | .tick _ => true
  | .parse _ _ => true
  | .encode _ => true
  | .reset _ => true

end Sys2Proof
end

