-- ==== Sys2Proof/Decode.lean ====
section
/-! DEFINITION. The decoder, total on any request and rejecting by name, and after it the encoder, both from the
formats of 30_encoding.md (CMD7 R71, DATA32 R72, HOSTOP and the reset input R76) and the word conventions of the
opcode table (R81). -/

namespace Sys2Proof

/-- The row of the opcode table that stands for a command (R75). -/
def Instr.ofCommand : Command → Instr
  | .sleep => .sleep
  | .wakeUp => .wakeUp
  | .activeMode => .active
  | .passiveMode => .passive
  | .readPassiveRequest => .read

/-- An outbound frame as a command of the session's ROM: seven bytes, the prefix, the checksum of the first
five, and an entry of the ROM, the lowest code first where entries coincide (R71, R75, R81). -/
def decodeCommand (rom : OpcodeRom) (b : List Byte) : Except DecodeError Instr :=
  if b.length ≠ 7 then .error (.notACommand .notSevenBytes)
  else if byteAt b 0 ≠ sync0 ∨ byteAt b 1 ≠ sync1 then .error (.notACommand .badPrefix)
  else if cksum16 (b.take 5) ≠ memRead2 b 5 then .error (.notACommand .badChecksum)
  else
    match Command.all.find? (fun c => rom.entry c == ⟨byteAt b 2, byteAt b 3, byteAt b 4⟩) with
    | some c => .ok (.ofCommand c)
    | none => .error (.notACommand .unknownOpcode)

/-- An inbound byte sequence as the DATA row: 32 bytes with the two sync bytes, which is all the row's mask
expresses; the checksum is checked when the frame is parsed (R72, R81, R120). -/
def decodeFrame (now : Time) (b : List Byte) : Except DecodeError Instr :=
  if b.length ≠ 32 then .error (.notAFrame .frameTooShort)
  else if byteAt b 0 ≠ sync0 ∨ byteAt b 1 ≠ sync1 then .error (.notAFrame .badSync)
  else .ok (.data now (b.drop 2))

/-- A host operation: the reset input overrides any operation code, and all four codes are defined (R76, R78). -/
def decodeHost (p : HostPort) : Instr :=
  if p.rst then .reset p.now
  else match p.op.toNat with
    | 0 => .nop
    | 1 => .tick p.now
    | 2 => .parse p.now p.bytes
    | _ => .encode p.cmd

/-- The instruction a request stands for. The direction tells CMD7 from DATA32 (R70). -/
def decode (rom : OpcodeRom) : Request → Except DecodeError Instr
  | .host p => .ok (decodeHost p)
  | .outbound b => decodeCommand rom b
  | .inbound now b => decodeFrame now b

/-- The ports of an operation, every operand the operation does not have at zero (R76). -/
def hostRequest (op : BitVec 2) (now : Time) (cmd : BitVec 3) (bytes : List Byte) : Request :=
  .host { rst := false, op := op, now := now, cmd := cmd, bytes := bytes }

/-- The request that carries an instruction (R71, R72, R76). -/
def encode (rom : OpcodeRom) : Instr → Request
  | .sleep => .outbound (commandFrame rom .sleep)
  | .wakeUp => .outbound (commandFrame rom .wakeUp)
  | .active => .outbound (commandFrame rom .activeMode)
  | .passive => .outbound (commandFrame rom .passiveMode)
  | .read => .outbound (commandFrame rom .readPassiveRequest)
  | .data now body => .inbound now (sync0 :: sync1 :: body)
  | .nop => hostRequest 0 0 0 []
  | .tick now => hostRequest 1 now 0 []
  | .parse now b => hostRequest 2 now 0 b
  | .encode cmd => hostRequest 3 0 cmd []
  | .reset now0 => .host { rst := true, op := 0, now := now0, cmd := 0, bytes := [] }

/-- The `n` bytes of a word, byte 0 the most significant: `W = sum over i of b[i] * 256^(n-1-i)` (R81). -/
def beBytes : Nat → Nat → List Byte
  | 0, _ => []
  | n + 1, w => BitVec.ofNat 8 (w / 256 ^ n) :: beBytes n w

/-- The request an opcode-table word of `nbits` bits stands for (R81; log 12). 256 bits: a DATA32 frame at time
0. 1 bit: the reset input. 2 bits, or the 8 bits that are 2 bits in whole bytes: `op`, with every operand at zero.
Any other width: an outbound frame of that many bytes.

DESIGN CHOICE (log 12), for numbers that match no row, of which the spec says nothing: the 1-bit word 0 (reset input low)
is read with `op` = 0 and so decodes to NOP; bits of a word above the ones its format has are dropped. -/
def requestOfTableWord (nbits w : Nat) : Request :=
  if nbits = 256 then .inbound 0 (beBytes 32 w)
  else if nbits = 1 then .host { rst := w % 2 == 1, op := 0, now := 0, cmd := 0, bytes := [] }
  else if nbits ≤ 8 then hostRequest (BitVec.ofNat 2 w) 0 0 []
  else .outbound (beBytes (nbits / 8) w)

/-- The instruction the decoder reads from a word of the opcode table, with the default ROM (log 2), whose bytes
the table's CMD7 rows carry. -/
def decodeTableWord (nbits w : Nat) : Option Instr :=
  (decode OpcodeRom.default (requestOfTableWord nbits w)).toOption

end Sys2Proof
end

