-- ==== Sys2Proof/Machine/Fetch.lean ====
section
/-! DEFINITION. How the next operation is taken from the host, and what a request that is no instruction does. -/

namespace Sys2Proof.Machine

open Sys2Proof

/-- The request presented next, and the state without it; none where nothing is presented (R57, R76; log 6). -/
def State.fetch (s : State) : Option (Request × State) :=
  match s.pending with
  | [] => none
  | r :: rest => some (r, { s with pending := rest })

/-- A request that decodes to no instruction. A byte sequence that is no frame raises the error R78 names for it and
is dropped; an outbound word that is no command is refused, since the spec has none (R78; log 11). -/
def State.reject (s : State) : DecodeError → Host.Outcome State Fault Refusal
  | .notAFrame e => .next (s.raise e)
  | .notACommand why => .refused (.notACommand why)

end Sys2Proof.Machine
end

