-- ==== Sys2Proof/Machine/Step.lean ====
section
/-! DEFINITION. One step: the next presented operation, decoded with the session's ROM and executed. -/

namespace Sys2Proof.Machine

open Sys2Proof

/-- One step. With nothing presented the block does nothing (R180). -/
def step (s : State) : Host.Outcome State Fault Refusal :=
  match s.fetch with
  | none => .next s
  | some (r, s1) =>
    match decode s.cfg.opc r with
    | .ok i => exec i s1
    | .error e => s1.reject e

/-- The state whose very next step runs the instruction of an opcode-table word: the word is presented first, with
every operand port at zero (R81; logs 6 and 12). -/
def State.withFetchWord (s : State) (nbits w : Nat) : State :=
  { s with pending := requestOfTableWord nbits w :: s.pending }

end Sys2Proof.Machine
end

