-- ==== Sys2Proof/Safety.lean ====
section
/-! DEFINITION. The terms in which claims speak of safe states and runs: the invariants of 10_state.md R34, the shape
of the event history (R179, R173, R176), and what the environment is about to answer. -/

namespace Sys2Proof.Machine

open Sys2Proof

/-- Whether any of the next `n` output calls answers `IoError` (R177). -/
def State.outFailed (s : State) (n : Nat) : Bool :=
  (List.range n).any (fun j => s.outAnswer (s.outCalls + j) == .ioError)

/-- The transmit buffer after a list of commands has been sent: the last one's frame, or what it held. -/
def txbAfter (rom : OpcodeRom) (cs : List Command) (old : Memory) : Memory :=
  match cs.getLast? with
  | none => old
  | some c => Memory.fill (commandFrame rom c)

/-- The frame buffer after an answer of `Recv`: the bytes, or what it held. -/
def fbAfter (a : RxAnswer) (old : Memory) : Memory :=
  match a with
  | .bytes b => Memory.fill b.val
  | .timeoutError => old
  | .ioError => old

/-- The error with which an answer of `Recv` fails an attempt, none where its bytes are a valid frame (R167). Validity
does not depend on the time (R127 c). -/
def attemptError : RxAnswer → Option Err
  | .timeoutError => some .timeoutError
  | .ioError => some .ioError
  | .bytes b =>
    match parseFrame 0 b.val with
    | .ok _ => none
    | .error e => some e

/-- The events of the `Send`s of a list of commands (R164, R173). -/
def txEvents (rom : OpcodeRom) (cs : List Command) : List Event :=
  cs.map (fun c => .tx (commandFrame rom c))

/-- The events of the edge into Sampling: the read request in passive mode, nothing in active mode (R166). -/
def requestEvents (cfg : Config) : List Event :=
  match cfg.mode with
  | .passive => txEvents cfg.opc [.readPassiveRequest]
  | .active => []

/-- The events of an attempt that fails with `e`: the `RX`, and a `FLUSH` after a protocol error (R169). -/
def failedAttemptEvents (cfg : Config) (a : RxAnswer) (e : Err) : List Event :=
  .rx 32 cfg.rxDeadline a :: (if e.isProtocol then [.flush] else [])

/-- R34 (b) and (c): `RETRY` is at most `RETRY_MAX`, it is 0 outside Sampling, and outside Dormant the turn-on is later
than the last sample. (R34 (a) is the type of `ST`.) -/
def State.CycleInv (s : State) : Prop :=
  s.retry.toNat ≤ s.cfg.retryMax.toNat ∧
  (s.st ≠ .sampling → s.retry = 0) ∧
  (s.st ≠ .dormant → s.lsa.toNat < s.lto.toNat)

/-- Both buffers are in canonical form and within their address spaces (R50). -/
def State.BufferInv (s : State) : Prop :=
  Memory.wf s.fb ∧ Memory.within 32 s.fb ∧ Memory.wf s.txb ∧ Memory.within 7 s.txb

/-- R34 (e): neither timestamp is later than `latest`, the latest time the block has been given. -/
def State.TimesUpTo (latest : Time) (s : State) : Prop :=
  s.lsa.toNat ≤ latest.toNat ∧ s.lto.toNat ≤ latest.toNat

/-- The dead end of R172: Dormant, the last turn-on later than the last sample. -/
def State.DeadEnd (s : State) : Prop := s.st = .dormant ∧ s.lsa.toNat < s.lto.toNat

/-- The four registers agree (R21). -/
def State.SameRegisters (s t : State) : Prop :=
  t.st = s.st ∧ t.lsa = s.lsa ∧ t.lto = s.lto ∧ t.retry = s.retry

/-- R173: whatever has been sent is a whole command of the session's ROM. -/
def State.SendsCommandsOnly (s : State) : Prop :=
  ∀ b, Event.tx b ∈ s.history → ∃ c, b = commandFrame s.cfg.opc c

/-- R123, R168, R176: every recorded Reading is the parse of the frame received directly before it, handed to the logger
under the session's label, and directly followed by the SLEEP command. -/
def State.RecordsAreReceivedFrames (s : State) : Prop :=
  ∀ pre r l post, s.history = pre ++ Event.record r l :: post →
    l = s.cfg.label ∧
    (∃ pre' b, pre = pre' ++ [Event.rx 32 s.cfg.rxDeadline (.bytes b)] ∧ parseFrame r.ts b.val = .ok r) ∧
    (∃ post', post = Event.tx (commandFrame s.cfg.opc .sleep) :: post')

/-- R179: in WarmingUp the history ends with the wake commands; in Sampling it ends with the wake commands, in passive
mode the read request, and then one group of events for each of the `RETRY` failed attempts. -/
def State.CycleHistory (s : State) : Prop :=
  match s.st with
  | .dormant => True
  | .warmingUp => ∃ pre, s.history = pre ++ txEvents s.cfg.opc s.cfg.wakeSeq
  | .sampling => ∃ pre groups,
      s.history = pre ++ txEvents s.cfg.opc s.cfg.wakeSeq ++ requestEvents s.cfg ++ List.flatten groups ∧
      groups.length = s.retry.toNat ∧
      ∀ g ∈ groups, ∃ a e, attemptError a = some e ∧ g = failedAttemptEvents s.cfg a e

/-- The request that presents `TICK now`. -/
def tickRequest (now : Time) : Request := hostRequest 1 now 0 []

/-- The entries of a ROM are pairwise different, so that a command frame has one reading (D5: the source does not
require it). -/
def romDistinct (rom : OpcodeRom) : Prop := ∀ c d : Command, rom.entry c = rom.entry d → c = d

end Sys2Proof.Machine
end

