-- ==== Sys2Proof/Certificates/Slice0/Obligations.lean ====
section
/-! DEFINITION. The statements for the provers, each from a numbered rule of spec/ or from the sections it names. -/

open Sys2Proof Sys2Proof.Machine

/-! ## Requests, words and steps -/

/-- One step runs the instruction the next request decodes to, on the state without that request (R57, R76); with
nothing presented, the model's choice (log 6), it leaves the state as it is. -/
def Obligations.StepRunsDecodedInstruction : Prop :=
  (∀ (s : State) (r : Request) (rest : List Request) (i : Instr),
    s.pending = r :: rest → decode s.cfg.opc r = .ok i → i.WellFormed = true →
    step s = exec i { s with pending := rest }) ∧
  (∀ s : State, s.pending = [] → step s = .next s)

/-- R180: code 0 is NOP, which changes nothing and returns nothing. -/
def Obligations.NopDoesNothing : Prop :=
  (∀ (rom : OpcodeRom) (p : HostPort), p.rst = false → p.op = 0 → decode rom (.host p) = .ok .nop) ∧
  (∀ s : State, exec .nop s = .next { s with result := .none })

/-- R76: the reset input overrides any operation code, and the four codes select NOP, TICK, PARSE and ENCODE with the
operands of their ports. -/
def Obligations.HostPortSelectsOperation : Prop :=
  ∀ (rom : OpcodeRom) (p : HostPort),
    (p.rst = true → decode rom (.host p) = .ok (.reset p.now)) ∧
    (p.rst = false → p.op = 0 → decode rom (.host p) = .ok .nop) ∧
    (p.rst = false → p.op = 1 → decode rom (.host p) = .ok (.tick p.now)) ∧
    (p.rst = false → p.op = 2 → decode rom (.host p) = .ok (.parse p.now p.bytes)) ∧
    (p.rst = false → p.op = 3 → decode rom (.host p) = .ok (.encode p.cmd))

/-- A few words of the opcode table decode to their rows (R75, R76, R81; the four command words other than READ under
the default ROM, log 2; the widths in whole bytes, log 12). -/
def Obligations.TableWordsDecodeToTheirRows : Prop :=
  decodeTableWord 56 0x424DE400000173 = some .sleep ∧
  decodeTableWord 56 0x424DE200000171 = some .read ∧
  decodeTableWord 256 0x424D001C000100020003000400050006000700080009000A000B000C000000F9 =
    some (.data 0 [0x00, 0x1C, 0, 1, 0, 2, 0, 3, 0, 4, 0, 5, 0, 6, 0, 7, 0, 8, 0, 9, 0, 10, 0, 11, 0, 12, 0, 0, 0x00, 0xF9]) ∧
  decodeTableWord 2 0 = some .nop ∧ decodeTableWord 2 1 = some (.tick 0) ∧
  decodeTableWord 2 2 = some (.parse 0 []) ∧ decodeTableWord 2 3 = some (.encode 0) ∧
  decodeTableWord 1 1 = some (.reset 0)

/-- Decode and encode agree on every well-formed instruction, with every operand at every value, for every ROM whose
entries differ (R71, R72, R76; D5 on the entries). -/
def Obligations.DecodeOfEncodeIsTheInstruction : Prop :=
  ∀ (rom : OpcodeRom), romDistinct rom → ∀ i : Instr, i.WellFormed = true → decode rom (encode rom i) = .ok i

/-- A wire word that decodes is the encoding of the instruction it decodes to, bit for bit, and that instruction is
well-formed (R71, R72, R81). -/
def Obligations.WireWordsHaveOneEncoding : Prop :=
  ∀ (rom : OpcodeRom) (r : Request) (i : Instr), (∀ p, r ≠ .host p) → decode rom r = .ok i →
    encode rom i = r ∧ i.WellFormed = true

/-- R72 and R81: in a 256-bit word whose top sixteen bits are 42 4D, field `k` is bits (223 − 16k):(208 − 16k) and the
checksum bits 15:0 of the DATA frame the word decodes to. (That such a word is presented with the time port at 0 is the
model's choice, log 12.) -/
def Obligations.DataWordFieldPositions : Prop :=
  ∀ w : Nat, w < 2 ^ 256 → w / 2 ^ 240 = 0x424D →
    ∃ body, decodeTableWord 256 w = some (.data 0 body) ∧ body.length = 30 ∧
      (∀ k < 12, frameField (sync0 :: sync1 :: body) k = BitVec.ofNat 16 (w / 2 ^ (208 - 16 * k))) ∧
      memRead2 (sync0 :: sync1 :: body) 30 = BitVec.ofNat 16 w

/-- An inbound byte sequence that is no frame raises the error R78 names for it and changes nothing else; an outbound
word that is no command is refused, the model's choice (log 11). -/
def Obligations.RequestsThatAreNoInstruction : Prop :=
  ∀ (s : State) (rest : List Request) (b : List Byte),
    (∀ now, s.pending = .inbound now b :: rest → b.length ≠ 32 →
      step s = .next { s with pending := rest, result := .error .frameTooShort }) ∧
    (∀ now, s.pending = .inbound now b :: rest → b.length = 32 → ¬(byteAt b 0 = 0x42 ∧ byteAt b 1 = 0x4D) →
      step s = .next { s with pending := rest, result := .error .badSync }) ∧
    (s.pending = .outbound b :: rest → (∀ c, b ≠ commandFrame s.cfg.opc c) →
      ∃ why, step s = .refused (.notACommand why))

/-- No operation stops the block (R200, R210): every step answers a next state, but for an outbound word that is no
command (log 11). -/
def Obligations.EveryStepAnswers : Prop :=
  ∀ s : State, (∃ t, step s = .next t) ∨
    ∃ b rest why, s.pending = .outbound b :: rest ∧ decode s.cfg.opc (.outbound b) = .error (.notACommand why) ∧
      step s = .refused (.notACommand why)

/-! ## Buffers and the checksum -/

/-- R63: a byte read after a write is the byte written at its own offset, and every other offset reads as before. -/
def Obligations.ReadAfterWrite : Prop :=
  ∀ (m : Memory) (a : Nat) (v : Byte) (a' : Nat),
    Memory.read (Memory.write m a v) a' = if a' = a then some v else Memory.read m a'

/-- R64: a buffer is filled in arrival order, the first byte to offset 0, and holds nothing else. -/
def Obligations.BufferIsFilledInArrivalOrder : Prop :=
  ∀ (b : List Byte) (i : Nat), Memory.read (Memory.fill b) i = b[i]?

/-- R73: the checksum of any byte sequence is the sum of its bytes, mod 65536. A command carries that of its first five
bytes, high byte first; a frame that passes carries that of its first thirty, which is compared big-endian. The sums of
five and of thirty bytes are at most 1275 and 7650. -/
def Obligations.ChecksumIsSumModulo65536 : Prop :=
  (∀ p : List Byte, (cksum16 p).toNat = (p.map BitVec.toNat).sum % 65536) ∧
  (∀ (rom : OpcodeRom) (c : Command),
    (commandFrame rom c).drop 5 =
      [hi8 (cksum16 ((commandFrame rom c).take 5)), lo8 (cksum16 ((commandFrame rom c).take 5))]) ∧
  (∀ (now : Time) (b : List Byte), b.length = 32 → b[0]? = some 0x42 → b[1]? = some 0x4D →
    (parseFrame now b = .error .checksumMismatch ↔
      (cksum16 (b.take 30)).toNat ≠ 256 * (byteAt b 30).toNat + (byteAt b 31).toNat)) ∧
  (∀ p : List Byte, (p.length = 5 → (p.map BitVec.toNat).sum ≤ 1275) ∧
    (p.length = 30 → (p.map BitVec.toNat).sum ≤ 7650))

/-! ## The command encoder -/

/-- R102 to R106: each command row builds its frame in the transmit buffer and returns it; nothing is sent and nothing
else changes (that the rows build and do not send: log 7; what the buffer holds afterwards: log 9). -/
def Obligations.CommandsReturnTheirFrames : Prop :=
  ∀ s : State,
    exec .sleep s = .next { s with txb := Memory.fill (commandFrame s.cfg.opc .sleep),
                                   result := .frame (commandFrame s.cfg.opc .sleep) } ∧
    exec .wakeUp s = .next { s with txb := Memory.fill (commandFrame s.cfg.opc .wakeUp),
                                    result := .frame (commandFrame s.cfg.opc .wakeUp) } ∧
    exec .active s = .next { s with txb := Memory.fill (commandFrame s.cfg.opc .activeMode),
                                    result := .frame (commandFrame s.cfg.opc .activeMode) } ∧
    exec .passive s = .next { s with txb := Memory.fill (commandFrame s.cfg.opc .passiveMode),
                                     result := .frame (commandFrame s.cfg.opc .passiveMode) } ∧
    exec .read s = .next { s with txb := Memory.fill (commandFrame s.cfg.opc .readPassiveRequest),
                                  result := .frame (commandFrame s.cfg.opc .readPassiveRequest) }

/-- R77, R100, R107: ENCODE with codes 0 to 4 returns the five frames in the source's order, and with codes 5 to 7 returns
InvalidModeError with no byte produced; nothing else changes (but for the contents of the transmit buffer, of which this
statement says nothing where a frame is built). A TICK never reports InvalidModeError. -/
def Obligations.EncodeByCode : Prop :=
  (∀ (s : State) (n : Nat) (c : Command),
    [Command.sleep, .wakeUp, .activeMode, .passiveMode, .readPassiveRequest][n]? = some c →
    ∃ t, exec (.encode (BitVec.ofNat 3 n)) s = .next t ∧
      t = { s with txb := t.txb, result := .frame (commandFrame s.cfg.opc c) }) ∧
  (∀ (s : State) (cmd : BitVec 3), 5 ≤ cmd.toNat →
    exec (.encode cmd) s = .next { s with result := .error .invalidModeError }) ∧
  (∀ (s t : State) (now : Time), exec (.tick now) s = .next t →
    ∀ res io rd, t.result ≠ .tick res (some .invalidModeError) io rd)

/-- R108: every command's frame has seven bytes, begins 42 4D and ends in the big-endian sum of its first five bytes; two
commands with different `OPC` bytes have different frames. -/
def Obligations.CommandFrameLaws : Prop :=
  ∀ (rom : OpcodeRom) (c : Command),
    (commandFrame rom c).length = 7 ∧
    (commandFrame rom c).take 5 = [0x42, 0x4D, (rom.entry c).b0, (rom.entry c).b1, (rom.entry c).b2] ∧
    256 * (byteAt (commandFrame rom c) 5).toNat + (byteAt (commandFrame rom c) 6).toNat =
      (((commandFrame rom c).take 5).map BitVec.toNat).sum ∧
    ∀ d : Command, rom.entry c ≠ rom.entry d → commandFrame rom c ≠ commandFrame rom d

/-- R101: the command checksum lies between 143 and 908 and is 0x8F plus the three opcode bytes, so that its high byte is
0 to 3. -/
def Obligations.CommandChecksumRange : Prop :=
  ∀ (rom : OpcodeRom) (c : Command),
    (cksum16 (commandHead rom c)).toNat =
      0x8F + (rom.entry c).b0.toNat + (rom.entry c).b1.toNat + (rom.entry c).b2.toNat ∧
    143 ≤ (cksum16 (commandHead rom c)).toNat ∧ (cksum16 (commandHead rom c)).toNat ≤ 908 ∧
    (byteAt (commandFrame rom c) 5).toNat ≤ 3

/-- R106, R82: READ is 42 4D E2 00 00 01 71, whatever the parameters. -/
def Obligations.ReadFrameIsFixed : Prop :=
  ∀ s : State, ∃ t, exec .read s = .next t ∧ t.result = .frame [0x42, 0x4D, 0xE2, 0x00, 0x00, 0x01, 0x71]

/-! ## The frame codec -/

/-- R121: PARSE of any sequence that is not 32 bytes long, shorter or longer, gives FrameTooShort and changes nothing
else, the frame buffer included (R64). A TICK never reports FrameTooShort, and no well-formed instruction other than
PARSE does. (A step on an inbound sequence of another length, which is no instruction, reports it too:
`RequestsThatAreNoInstruction`, log 11.) -/
def Obligations.ParseChecksLength : Prop :=
  (∀ (s : State) (now : Time) (b : List Byte), b.length ≠ 32 →
    exec (.parse now b) s = .next { s with result := .error .frameTooShort }) ∧
  (∀ (s t : State) (now : Time), exec (.tick now) s = .next t →
    ∀ res io rd, t.result ≠ .tick res (some .frameTooShort) io rd) ∧
  (∀ (i : Instr) (s t : State), i.WellFormed = true → exec i s = .next t → t.result = .error .frameTooShort →
    ∃ now b, i = .parse now b)

/-- R122: PARSE of 32 bytes that do not begin 42 4D gives BadSync, whatever the other thirty bytes are, and changes
nothing else (of the contents of the frame buffer this statement says nothing). -/
def Obligations.ParseChecksSync : Prop :=
  ∀ (s : State) (now : Time) (b : List Byte), b.length = 32 → ¬(b[0]? = some 0x42 ∧ b[1]? = some 0x4D) →
    ∃ t, exec (.parse now b) s = .next t ∧ t = { s with fb := t.fb, result := .error .badSync }

/-- R123: PARSE of 32 bytes that begin 42 4D compares the sum of the first thirty, mod 65536, with the big-endian last
two: ChecksumMismatch where they differ, a Reading where they agree, and nothing else changes (of the contents of the
frame buffer this statement says nothing). The sum of thirty bytes is at most 7650. -/
def Obligations.ParseChecksChecksum : Prop :=
  ∀ (s : State) (now : Time) (b : List Byte), b.length = 32 → b[0]? = some 0x42 → b[1]? = some 0x4D →
    ((b.take 30).map BitVec.toNat).sum ≤ 7650 ∧
    (((b.take 30).map BitVec.toNat).sum % 65536 ≠ 256 * (byteAt b 30).toNat + (byteAt b 31).toNat →
      ∃ t, exec (.parse now b) s = .next t ∧ t = { s with fb := t.fb, result := .error .checksumMismatch }) ∧
    (((b.take 30).map BitVec.toNat).sum % 65536 = 256 * (byteAt b 30).toNat + (byteAt b 31).toNat →
      ∃ t, exec (.parse now b) s = .next t ∧ t = { s with fb := t.fb, result := .parsed (decodeReading now b) })

/-- R50, R64; that a buffer still holds the bytes after the operation is the model's choice (log 9). After PARSE of 32
bytes the frame buffer holds them, byte by byte, and after ENCODE of a command the transmit buffer holds its frame; no
other offset has a value. -/
def Obligations.BuffersHoldTheLastFrame : Prop :=
  ∀ s t : State,
    (∀ now b, b.length = 32 → exec (.parse now b) s = .next t → ∀ a, Memory.read t.fb a = b[a]?) ∧
    (∀ n c, [Command.sleep, .wakeUp, .activeMode, .passiveMode, .readPassiveRequest][n]? = some c →
      exec (.encode (BitVec.ofNat 3 n)) s = .next t → ∀ a, Memory.read t.txb a = (commandFrame s.cfg.opc c)[a]?)

/-- R140, R142, R144: the Reading of a frame has the twelve big-endian fields of bytes 4 to 27 in order, the exact signed
difference of fields 6 and 9 with no wrap and no clamp, and the time operand. -/
def Obligations.ReadingHoldsTheFields : Prop :=
  ∀ (now : Time) (b : List Byte),
    (decodeReading now b).fields.length = 12 ∧
    (∀ k < 12, ((decodeReading now b).fields[k]?).map BitVec.toNat =
      some (256 * (byteAt b (4 + 2 * k)).toNat + (byteAt b (5 + 2 * k)).toNat)) ∧
    (decodeReading now b).count.toInt =
      ((256 * (byteAt b 16).toNat + (byteAt b 17).toNat : Nat) : Int)
        - ((256 * (byteAt b 22).toNat + (byteAt b 23).toNat : Nat) : Int) ∧
    (decodeReading now b).ts = now

/-- R143: `EST10` is the integer nearest to ten times `K · COUNT`, with `K` the real number of the source's formula; it
lies between −3858 and 3858, it is odd in `COUNT`, and it is the integer form of R143. -/
def Obligations.EstimateIsNearestTenth : Prop :=
  (∀ (now : Time) (b : List Byte),
    |10 * ((4 / 3 : ℝ) * Real.pi * (44 / 100000000 : ℝ) ^ 3 * 1650000000000 * 10 * 1000)
        * ((decodeReading now b).count.toInt : ℝ) - ((decodeReading now b).est10.toInt : ℝ)| < 1 / 2 ∧
    -3858 ≤ (decodeReading now b).est10.toInt ∧ (decodeReading now b).est10.toInt ≤ 3858 ∧
    (decodeReading now b).est10.toInt =
      Int.floor (((252866003 * (decodeReading now b).count.toInt + 2 ^ 31 : Int) : ℚ) / 2 ^ 32)) ∧
  (∀ (now now' : Time) (b b' : List Byte),
    (decodeReading now' b').count.toInt = -(decodeReading now b).count.toInt →
    (decodeReading now' b').est10.toInt = -(decodeReading now b).est10.toInt)

/-- R145: the twelve fields are functions of bytes 4 to 27, `COUNT` and `EST10` of bytes 16, 17, 22 and 23 alone, `TS` of
`now` alone; two parses of the same bytes at different times differ only in `TS`. -/
def Obligations.ReadingDependsOnPayloadOnly : Prop :=
  ∀ (now now' : Time) (b b' : List Byte),
    ((∀ i, 4 ≤ i → i < 28 → byteAt b i = byteAt b' i) →
      (decodeReading now b).fields = (decodeReading now' b').fields) ∧
    (byteAt b 16 = byteAt b' 16 → byteAt b 17 = byteAt b' 17 → byteAt b 22 = byteAt b' 22 →
      byteAt b 23 = byteAt b' 23 →
      (decodeReading now b).count = (decodeReading now' b').count ∧
      (decodeReading now b).est10 = (decodeReading now' b').est10) ∧
    (decodeReading now b).ts = now ∧
    (∀ e, parseFrame now b = .error e → parseFrame now' b = .error e) ∧
    (∀ r, parseFrame now b = .ok r → parseFrame now' b = .ok { r with ts := now' })

/-- The DATA row (R72, R120, R144; log 8): a 32-byte frame handed to the codec fills the frame buffer (log 9) and returns
its Reading, or ChecksumMismatch. -/
def Obligations.DataFrameIsParsed : Prop :=
  ∀ (s : State) (now : Time) (body : List Byte), body.length = 30 →
    ((((0x42 :: 0x4D :: body).take 30).map BitVec.toNat).sum =
        256 * (byteAt body 28).toNat + (byteAt body 29).toNat →
      exec (.data now body) s = .next { s with fb := Memory.fill (0x42 :: 0x4D :: body),
                                               result := .parsed (decodeReading now (0x42 :: 0x4D :: body)) }) ∧
    ((((0x42 :: 0x4D :: body).take 30).map BitVec.toNat).sum ≠
        256 * (byteAt body 28).toNat + (byteAt body 29).toNat →
      exec (.data now body) s = .next { s with fb := Memory.fill (0x42 :: 0x4D :: body),
                                               result := .error .checksumMismatch })

/-- R127 (a): a valid frame with exactly one byte changed fails, with BadSync at offsets 0 and 1 and with
ChecksumMismatch at every other. -/
def Obligations.OneChangedByteIsCaught : Prop :=
  ∀ (now : Time) (b : List Byte) (r : Reading) (i : Nat) (v : Byte),
    parseFrame now b = .ok r → i < 32 → v ≠ byteAt b i →
    parseFrame now (b.set i v) = .error (if i < 2 then .badSync else .checksumMismatch)

/-- R127 (b): a valid frame stays valid when two bytes at offsets 2 to 29 are exchanged, or when one is raised by 1 and
another lowered by 1. -/
def Obligations.SumKeepingChangesPass : Prop :=
  ∀ (now : Time) (b : List Byte) (r : Reading) (i j : Nat),
    parseFrame now b = .ok r → 2 ≤ i → i < 30 → 2 ≤ j → j < 30 →
    (∃ r', parseFrame now ((b.set i (byteAt b j)).set j (byteAt b i)) = .ok r') ∧
    (i ≠ j → (byteAt b i).toNat < 255 → 0 < (byteAt b j).toNat →
      ∃ r', parseFrame now ((b.set i (byteAt b i + 1)).set j (byteAt b j - 1)) = .ok r')

/-- R124: in a valid frame the checksum bytes hold a value between 143 and 7283. -/
def Obligations.ValidChecksumRange : Prop :=
  ∀ (now : Time) (b : List Byte) (r : Reading), parseFrame now b = .ok r →
    143 ≤ 256 * (byteAt b 30).toNat + (byteAt b 31).toNat ∧
    256 * (byteAt b 30).toNat + (byteAt b 31).toNat ≤ 7283

/-! ## The scheduler -/

/-- R161, R162: each guard is the comparison of mathematical integers, strict in its first clause and not in its second,
and the comparator without subtraction, with the sum in 33 bits, is the same. In WarmingUp the second clause of `G_WARM`
always holds (in every state that meets the cycle invariant). -/
def Obligations.GuardsAreIntegerComparisons : Prop :=
  ∀ (s : State) (now : Time),
    (s.CycleInv → s.st = .warmingUp → s.lto.toNat ≥ s.lsa.toNat) ∧
    (gStart s now = true ↔
      ((now.toNat : Int) - s.lsa.toNat > s.cfg.si.toNat ∧ s.lsa.toNat ≥ s.lto.toNat)) ∧
    (gWarm s now = true ↔
      ((now.toNat : Int) - s.lto.toNat > s.cfg.wd.toNat ∧ s.lto.toNat ≥ s.lsa.toNat)) ∧
    gStart s now = ((s.lsa.setWidth 33 + s.cfg.si.setWidth 33).ult (now.setWidth 33) && s.lto.ule s.lsa) ∧
    gWarm s now = ((s.lto.setWidth 33 + s.cfg.wd.setWidth 33).ult (now.setWidth 33) && s.lsa.ule s.lto)

/-- R163: a TICK in Dormant. Where `G_START` holds it sends the wake commands in order, stores `LTO` and moves to
WarmingUp; else it is IDLE. Nothing else changes (the environment's answers: log 5; the transmit buffer afterwards:
log 9). -/
def Obligations.TickInDormant : Prop :=
  ∀ (s : State) (now : Time), s.st = .dormant →
    ((now.toNat : Int) - s.lsa.toNat > s.cfg.si.toNat ∧ s.lsa.toNat ≥ s.lto.toNat →
      exec (.tick now) s = .next
        { s with st := .warmingUp, lto := now,
                 txb := txbAfter s.cfg.opc s.cfg.wakeSeq s.txb,
                 history := s.history ++ txEvents s.cfg.opc s.cfg.wakeSeq,
                 outCalls := s.outCalls + s.cfg.wakeSeq.length,
                 result := .tick .started none (s.outFailed s.cfg.wakeSeq.length) none }) ∧
    (¬((now.toNat : Int) - s.lsa.toNat > s.cfg.si.toNat ∧ s.lsa.toNat ≥ s.lto.toNat) →
      exec (.tick now) s = .next { s with result := .tick .idle none false none })

/-- R165, R166: a TICK in WarmingUp. Where `G_WARM` holds it sends READ once in passive mode and nothing in active mode,
clears `RETRY` and moves to Sampling, with no receive; else it is IDLE. Nothing else changes (the environment's answers:
log 5; the transmit buffer afterwards: log 9). -/
def Obligations.TickInWarmingUp : Prop :=
  ∀ (s : State) (now : Time), s.st = .warmingUp →
    ((now.toNat : Int) - s.lto.toNat > s.cfg.wd.toNat ∧ s.lto.toNat ≥ s.lsa.toNat →
      (s.cfg.mode = .passive → exec (.tick now) s = .next
        { s with st := .sampling, retry := 0,
                 txb := Memory.fill (commandFrame s.cfg.opc .readPassiveRequest),
                 history := s.history ++ [.tx (commandFrame s.cfg.opc .readPassiveRequest)],
                 outCalls := s.outCalls + 1,
                 result := .tick .warmed none (s.outFailed 1) none }) ∧
      (s.cfg.mode = .active → exec (.tick now) s = .next
        { s with st := .sampling, retry := 0, result := .tick .warmed none false none })) ∧
    (¬((now.toNat : Int) - s.lto.toNat > s.cfg.wd.toNat ∧ s.lto.toNat ≥ s.lsa.toNat) →
      exec (.tick now) s = .next { s with result := .tick .idle none false none })

/-- R167, R168: a TICK in Sampling whose received bytes are a valid frame records the Reading, sends SLEEP, stores `LSA`,
clears `RETRY` and returns to Dormant; `LTO` is unchanged (the `RX` event's arguments: log 14; the environment's answers:
log 5; the buffers afterwards: log 9). -/
def Obligations.TickInSamplingSucceeds : Prop :=
  ∀ (s : State) (now : Time) (b : Frame32) (r : Reading), s.st = .sampling →
    s.rxAnswer s.rxCalls = .bytes b → parseFrame now b.val = .ok r →
    r.ts = now ∧
    exec (.tick now) s = .next
      { s with st := .dormant, lsa := now, retry := 0,
               fb := Memory.fill b.val, txb := Memory.fill (commandFrame s.cfg.opc .sleep),
               history := s.history ++ [.rx 32 s.cfg.rxDeadline (.bytes b), .record r s.cfg.label,
                                        .tx (commandFrame s.cfg.opc .sleep)],
               outCalls := s.outCalls + 2, rxCalls := s.rxCalls + 1,
               result := .tick .reading none (s.outFailed 2) (some r) }

/-- R169, R170, R171: a TICK in Sampling whose attempt fails discards once after a protocol error and not after a
transport error; below the ceiling it counts a retry and stays, at the ceiling it clears `RETRY` and returns to Dormant.
Neither timestamp changes, no SLEEP is sent, no Reading made (the `RX` event's arguments: log 14; the environment's
answers: log 5; the frame buffer afterwards: log 9). -/
def Obligations.TickInSamplingFails : Prop :=
  ∀ (s : State) (now : Time) (e : Err), s.st = .sampling → attemptError (s.rxAnswer s.rxCalls) = some e →
    let a := s.rxAnswer s.rxCalls
    let n := if e.isProtocol then 1 else 0
    (s.retry.toNat < s.cfg.retryMax.toNat →
      exec (.tick now) s = .next
        { s with retry := s.retry + 1, fb := fbAfter a s.fb,
                 history := s.history ++ failedAttemptEvents s.cfg a e,
                 outCalls := s.outCalls + n, rxCalls := s.rxCalls + 1,
                 result := .tick .retrying (some e) (s.outFailed n) none }) ∧
    (¬ s.retry.toNat < s.cfg.retryMax.toNat →
      exec (.tick now) s = .next
        { s with st := .dormant, retry := 0, fb := fbAfter a s.fb,
                 history := s.history ++ failedAttemptEvents s.cfg a e,
                 outCalls := s.outCalls + n, rxCalls := s.rxCalls + 1,
                 result := .tick .failed (some e) (s.outFailed n) none })

/-- R160, R192: a TICK takes at most one edge, and each edge under its own condition. -/
def Obligations.TickTakesAtMostOneEdge : Prop :=
  ∀ (s t : State) (now : Time), exec (.tick now) s = .next t →
    t.st = s.st ∨
    (s.st = .dormant ∧ t.st = .warmingUp ∧ gStart s now = true) ∨
    (s.st = .warmingUp ∧ t.st = .sampling ∧ gWarm s now = true) ∨
    (s.st = .sampling ∧ t.st = .dormant ∧ attemptError (s.rxAnswer s.rxCalls) = none) ∨
    (s.st = .sampling ∧ t.st = .dormant ∧ attemptError (s.rxAnswer s.rxCalls) ≠ none ∧
      s.cfg.retryMax.toNat ≤ s.retry.toNat)

/-- R165 and the source's property S8: Sampling is entered only by a TICK, only from WarmingUp, and only when more than the
warm-up time has passed since the stored turn-on, which is the time WarmingUp was entered. -/
def Obligations.SamplingOnlyAfterWarmUp : Prop :=
  ∀ (i : Instr) (s t : State), exec i s = .next t →
    (s.st ≠ .sampling → t.st = .sampling →
      s.st = .warmingUp ∧ ∃ now, i = .tick now ∧ s.lto.toNat + s.cfg.wd.toNat < now.toNat ∧ t.lto = s.lto) ∧
    (s.st ≠ .warmingUp → t.st = .warmingUp → ∃ now, i = .tick now ∧ t.lto = now) ∧
    (s.st = .warmingUp → t.st = .warmingUp → t.lto = s.lto)

/-- R27, R100, R120, R209: an operation other than TICK and RESET changes no register, no configuration and no event; only
the buffers and the result may differ. -/
def Obligations.OnlyTickAndResetChangeRegisters : Prop :=
  ∀ (i : Instr) (s t : State), exec i s = .next t →
    (∃ now, i = .tick now) ∨ (∃ now0, i = .reset now0) ∨
      t = { s with fb := t.fb, txb := t.txb, result := t.result }

/-- R177: the answers of `Send`, `Discard` and `Record` (as log 5 holds them) change the flag `ioerr` of a TICK's result
and nothing else: `ioerr` is set where a call made during the TICK answered `IoError`. -/
def Obligations.OutputAnswersChangeOnlyIoerr : Prop :=
  ∀ (s : State) (now : Time) (answers : List OutAnswer) (calls : Nat),
    ∃ t t' res err rd io io',
      exec (.tick now) s = .next t ∧
      exec (.tick now) { s with outScript := answers, outCalls := calls } = .next t' ∧
      t.result = .tick res err io rd ∧ t'.result = .tick res err io' rd ∧
      t' = { t with outScript := answers, outCalls := t'.outCalls, result := t'.result } ∧
      t'.outCalls + s.outCalls = calls + t.outCalls ∧
      io = s.outFailed (t.outCalls - s.outCalls)

/-- R183: after RESET, an active session's first cycle starts at the first TICK with `now > SI`, a passive session's at the
first with `now > now0 + SI`; before that a TICK is IDLE. -/
def Obligations.FirstCycleAfterReset : Prop :=
  ∀ (s t : State) (now0 now : Time), exec (.reset now0) s = .next t →
    (s.cfg.mode = .active →
      (s.cfg.si.toNat < now.toNat → ∃ u, exec (.tick now) t = .next u ∧ u.st = .warmingUp ∧ u.lto = now) ∧
      (now.toNat ≤ s.cfg.si.toNat →
        exec (.tick now) t = .next { t with result := .tick .idle none false none })) ∧
    (s.cfg.mode = .passive →
      (now0.toNat + s.cfg.si.toNat < now.toNat →
        ∃ u, exec (.tick now) t = .next u ∧ u.st = .warmingUp ∧ u.lto = now) ∧
      (now.toNat ≤ now0.toNat + s.cfg.si.toNat →
        exec (.tick now) t = .next { t with result := .tick .idle none false none }))

/-- R172: a cycle that fails ends in the dead end, from every state that meets the cycle invariant. -/
def Obligations.FailedCycleEndsInDeadEnd : Prop :=
  ∀ (s t : State) (now : Time), s.CycleInv → exec (.tick now) s = .next t →
    (∃ err io rd, t.result = .tick .failed err io rd) → t.DeadEnd

/-- R172, R236: every step from a dead end that answers a next state, whatever is presented but the reset input (an
operation, a frame, a byte sequence that is no frame, nothing), ends in the dead end with no register changed and no event
made. -/
def Obligations.DeadEndLastsUntilReset : Prop :=
  ∀ s t : State, s.DeadEnd → (∀ p rest, s.pending = .host p :: rest → p.rst = false) → step s = .next t →
    t.DeadEnd ∧ s.SameRegisters t ∧ t.history = s.history

/-- R170, R171: a cycle makes at most `RETRY_MAX` + 1 attempts. Where every attempt fails, the first `RETRY_MAX` leave the
block in Sampling with `RETRY` counting them, and the next ends the cycle with FAILED, neither timestamp changed. -/
def Obligations.FailingCycleIsBounded : Prop :=
  ∀ (s : State) (nows : List Time) (rest : List Request), s.st = .sampling → s.retry = 0 →
    s.pending = nows.map tickRequest ++ rest → nows.length = s.cfg.retryMax.toNat + 1 →
    (∀ k ≤ s.cfg.retryMax.toNat, attemptError (s.rxAnswer (s.rxCalls + k)) ≠ none) →
    (∀ k ≤ s.cfg.retryMax.toNat, ∃ t, Sys2Proof.core.run k s = .next t ∧ t.st = .sampling ∧ t.retry.toNat = k ∧
      t.rxCalls = s.rxCalls + k ∧ t.lsa = s.lsa ∧ t.lto = s.lto) ∧
    ∃ t e io, Sys2Proof.core.run (s.cfg.retryMax.toNat + 1) s = .next t ∧ t.st = .dormant ∧ t.retry = 0 ∧
      t.rxCalls = s.rxCalls + s.cfg.retryMax.toNat + 1 ∧ t.lsa = s.lsa ∧ t.lto = s.lto ∧
      t.pending = rest ∧ t.result = .tick .failed (some e) io none

/-! ## Reset -/

/-- R230, R33: the reset input is RESET, whatever the operation code; RESET gives every register its reset value in any
state, empties the history and sends `INIT_SEQ[MODE]`; it has no result and does not change the configuration. It is the
one operation that leads out of the dead end. -/
def Obligations.ResetEffect : Prop :=
  (∀ (rom : OpcodeRom) (p : HostPort), p.rst = true → decode rom (.host p) = .ok (.reset p.now)) ∧
  (∀ (i : Instr) (s t : State), s.DeadEnd → exec i s = .next t → (∀ now0, i ≠ .reset now0) → t.DeadEnd) ∧
  ∀ (s : State) (now0 : Time), ∃ t, exec (.reset now0) s = .next t ∧ ¬ t.DeadEnd ∧
    t.st = .dormant ∧ t.lto = 0 ∧ t.retry = 0 ∧
    (s.cfg.mode = .passive → t.lsa = now0) ∧ (s.cfg.mode = .active → t.lsa = 0) ∧
    t.history = txEvents s.cfg.opc s.cfg.initSeq ∧ t.result = .none ∧ t.cfg = s.cfg

/-- The model's choice (log 9): after RESET no offset of the frame buffer has a value, and the transmit buffer holds only
what `INIT_SEQ` has put there: the frame of its last command, byte by byte, or nothing where it is empty. -/
def Obligations.ResetDropsBuffers : Prop :=
  ∀ (s t : State) (now0 : Time), exec (.reset now0) s = .next t →
    (∀ a, Memory.read t.fb a = none) ∧
    t.txb = txbAfter s.cfg.opc s.cfg.initSeq [] ∧
    (∀ c, s.cfg.initSeq.getLast? = some c → ∀ a, Memory.read t.txb a = (commandFrame s.cfg.opc c)[a]?) ∧
    (s.cfg.initSeq = [] → ∀ a, Memory.read t.txb a = none)

/-- R33, R34: every invariant below holds after every RESET, at any time operand, from any state and under any
configuration, and so in `State.reset`, whose time operand and configuration are the model's choice (logs 1, 3, 13). The
buffers' form is log 9's. -/
def Obligations.InvariantsHoldAtReset : Prop :=
  (∀ (s t : State) (now0 : Time), exec (.reset now0) s = .next t →
    t.CycleInv ∧ t.BufferInv ∧ t.TimesUpTo now0 ∧ t.SendsCommandsOnly ∧ t.RecordsAreReceivedFrames ∧
      t.CycleHistory) ∧
  State.reset.CycleInv ∧ State.reset.BufferInv ∧ State.reset.TimesUpTo 0 ∧ State.reset.SendsCommandsOnly ∧
    State.reset.RecordsAreReceivedFrames ∧ State.reset.CycleHistory

/-! ## Invariants every step keeps -/

/-- R34 (b), (c): every step keeps `RETRY` within its ceiling and 0 outside Sampling, and the turn-on later than the last
sample outside Dormant. Monotonic time is no premise of these. -/
def Obligations.StepKeepsCycleInvariant : Prop :=
  ∀ s t : State, s.CycleInv → step s = .next t → t.CycleInv

/-- R34 (e): with monotonic time, neither timestamp is ever later than the latest time the block has been given. -/
def Obligations.TimestampsNeverExceedLatestTime : Prop :=
  ∀ (i : Instr) (s t : State) (latest now : Time), s.TimesUpTo latest → exec i s = .next t →
    (i = .tick now ∨ i = .reset now → latest.toNat ≤ now.toNat → t.TimesUpTo now) ∧
    ((∀ n, i ≠ .tick n ∧ i ≠ .reset n) → t.TimesUpTo latest)

/-- R50: every step keeps both buffers within their 32 and 7 offsets, and, the model's choice (log 9: the buffers stand in
the state between operations, as lists), in canonical form, addresses strictly rising. -/
def Obligations.StepKeepsBuffers : Prop :=
  ∀ s t : State, s.BufferInv → step s = .next t → t.BufferInv

/-- R26, R231: no step changes the configuration, nor the environment's answers (the scripts are the model's, log 5). -/
def Obligations.StepKeepsConfiguration : Prop :=
  ∀ s t : State, step s = .next t → t.cfg = s.cfg ∧ t.outScript = s.outScript ∧ t.rxScript = s.rxScript

/-- R32: the history is append-only, but for RESET. -/
def Obligations.HistoryOnlyGrows : Prop :=
  ∀ s t : State, step s = .next t →
    (∃ new, t.history = s.history ++ new) ∨ (∃ p rest, s.pending = .host p :: rest ∧ p.rst = true)

/-- R173: the block never sends anything but whole commands. -/
def Obligations.StepSendsCommandsOnly : Prop :=
  ∀ s t : State, s.SendsCommandsOnly → step s = .next t → t.SendsCommandsOnly

/-- R123, R168, R176: every Reading ever recorded is the parse of the frame received directly before it, and SLEEP directly
follows it. -/
def Obligations.StepRecordsReceivedFramesOnly : Prop :=
  ∀ s t : State, s.RecordsAreReceivedFrames → step s = .next t → t.RecordsAreReceivedFrames

/-- R179: every step keeps the order of a cycle's events: wake commands, the read request in passive mode, then the
attempts. -/
def Obligations.StepKeepsCycleOrder : Prop :=
  ∀ s t : State, s.CycleHistory → step s = .next t → t.CycleHistory

/-! ## Whole runs and the environment -/

/-- R172, R236: in the dead end every TICK is IDLE and changes nothing else. A run of any number of steps in which the
reset input is not presented changes no register and makes no event, and it answers a next state where every presented
request is an instruction or an inbound byte sequence, a frame or not. -/
def Obligations.DeadEndLastsForEver : Prop :=
  (∀ (s : State) (now : Time), s.DeadEnd →
    exec (.tick now) s = .next { s with result := .tick .idle none false none }) ∧
  (∀ (n : Nat) (s t : State), s.DeadEnd → (∀ p, .host p ∈ s.pending → p.rst = false) →
    Sys2Proof.core.run n s = .next t → s.SameRegisters t ∧ t.history = s.history) ∧
  (∀ (n : Nat) (s : State), s.DeadEnd → (∀ p, .host p ∈ s.pending → p.rst = false) →
    (∀ r ∈ s.pending, (∃ i, decode s.cfg.opc r = .ok i) ∨ ∃ now b, r = .inbound now b) →
    ∃ t, Sys2Proof.core.run n s = .next t)

/-- R230, R231 in the model's own fields: RESET makes one output call for each command of `INIT_SEQ`, whose answers it
ignores, and touches neither the environment's answers (log 5) nor the requests still presented (log 6). -/
def Obligations.ResetIgnoresTheAnswers : Prop :=
  ∀ (s t : State) (now0 : Time), exec (.reset now0) s = .next t →
    t.outCalls = s.outCalls + s.cfg.initSeq.length ∧ t.outScript = s.outScript ∧
    t.rxCalls = s.rxCalls ∧ t.rxScript = s.rxScript ∧ t.pending = s.pending ∧
    ∀ (answers : List OutAnswer) (calls : Nat),
      exec (.reset now0) { s with outScript := answers, outCalls := calls } =
        .next { t with outScript := answers, outCalls := calls + s.cfg.initSeq.length }
end

