-- ==== Sys2Proof/Laws/Memory.lean ====
section
/-! SUPPORT. The buffers: every memory operation keeps the canonical form, a byte read after a write, and a buffer
filled whole. -/

namespace Sys2Proof.Machine

open Sys2Proof

theorem Memory.mem_write {m : Memory} {a : Nat} {v : Byte} {c : Host.Cell} (h : c ∈ Memory.write m a v) :
    c = (a, v) ∨ c ∈ m := by
  induction m with
  | nil => simpa [Memory.write] using h
  | cons d r ih =>
    obtain ⟨k, w⟩ := d
    simp only [Memory.write] at h
    split at h
    · simpa using h
    · split at h
      · rcases List.mem_cons.mp h with h | h <;> simp [h]
      · rcases List.mem_cons.mp h with h | h
        · simp [h]
        · rcases ih h with h | h <;> simp [h]

/-- A write keeps the addresses strictly rising. -/
theorem Memory.write_wf {m : Memory} (a : Nat) (v : Byte) (h : Memory.wf m) : Memory.wf (Memory.write m a v) := by
  induction m with
  | nil => simp [Memory.write, Memory.wf]
  | cons d r ih =>
    obtain ⟨k, w⟩ := d
    obtain ⟨hk, hr⟩ := List.pairwise_cons.mp h
    simp only [Memory.write]
    split
    · next hlt =>
      refine List.pairwise_cons.mpr ⟨fun c hc => ?_, h⟩
      rcases List.mem_cons.mp hc with rfl | hc
      · exact hlt
      · exact lt_trans hlt (hk c hc)
    · split
      · next heq => subst heq; exact List.pairwise_cons.mpr ⟨hk, hr⟩
      · next hlt hne =>
        refine List.pairwise_cons.mpr ⟨fun c hc => ?_, ih hr⟩
        rcases Memory.mem_write hc with rfl | hc
        · exact lt_of_le_of_ne (not_lt.mp hlt) (Ne.symm hne)
        · exact hk c hc

/-- A run of writes keeps the canonical form. -/
theorem Memory.writeFrom_wf {m : Memory} (a : Nat) (b : List Byte) (h : Memory.wf m) :
    Memory.wf (Memory.writeFrom m a b) := by
  induction b generalizing m a with
  | nil => exact h
  | cons v r ih => exact ih (a + 1) (Memory.write_wf a v h)

/-- A buffer filled whole is in canonical form. -/
theorem Memory.fill_wf (b : List Byte) : Memory.wf (Memory.fill b) :=
  Memory.writeFrom_wf 0 b List.Pairwise.nil

theorem Memory.mem_writeFrom {m : Memory} {a : Nat} {b : List Byte} {c : Host.Cell}
    (h : c ∈ Memory.writeFrom m a b) : c ∈ m ∨ c.1 < a + b.length := by
  induction b generalizing m a with
  | nil => exact .inl h
  | cons v r ih =>
    rcases ih (m := Memory.write m a v) (a := a + 1) h with h | h
    · rcases Memory.mem_write h with rfl | h
      · right; simp
      · exact .inl h
    · right; simp only [List.length_cons]; omega

/-- A buffer filled with `n` bytes lists offsets below `n` only. -/
theorem Memory.fill_within (b : List Byte) : Memory.within b.length (Memory.fill b) := by
  intro c hc
  rcases Memory.mem_writeFrom hc with h | h
  · simp at h
  · simpa using h

/-- A write past the last listed offset goes to the end. -/
theorem Memory.write_last {m : Memory} {a : Nat} (v : Byte) (h : ∀ c ∈ m, c.1 < a) :
    Memory.write m a v = m ++ [(a, v)] := by
  induction m with
  | nil => rfl
  | cons d r ih =>
    obtain ⟨k, w⟩ := d
    have hk : k < a := h (k, w) (by simp)
    simp [Memory.write, not_lt.mpr hk.le, hk.ne', ih fun c hc => h c (by simp [hc])]

theorem Memory.writeFrom_bytes {m : Memory} {a : Nat} (b : List Byte) (h : ∀ c ∈ m, c.1 < a) :
    (Memory.writeFrom m a b).bytes = m.bytes ++ b := by
  induction b generalizing m a with
  | nil => simp [Memory.writeFrom]
  | cons v r ih =>
    rw [Memory.writeFrom, ih, Memory.write_last v h]
    · simp [Memory.bytes]
    · rw [Memory.write_last v h]
      intro c hc
      rcases List.mem_append.mp hc with hc | hc
      · have := h c hc; omega
      · rw [List.mem_singleton] at hc; subst hc; simp

/-- A buffer filled whole holds the bytes it was filled with, in order. -/
@[simp] theorem Memory.bytes_fill (b : List Byte) : (Memory.fill b).bytes = b :=
  Memory.writeFrom_bytes (m := []) (a := 0) b (by simp)

end Sys2Proof.Machine
end

