-- ==== Sys2Proof/Laws/State.lean ====
section
/-! SUPPORT. One lemma per field per update of the state, true by rfl, so that no later proof unfolds a record
update. -/

namespace Sys2Proof.Machine

open Sys2Proof

@[simp] theorem State.deliver_st (r : Result) (s : State) : (s.deliver r).st = s.st := rfl
@[simp] theorem State.deliver_lsa (r : Result) (s : State) : (s.deliver r).lsa = s.lsa := rfl
@[simp] theorem State.deliver_lto (r : Result) (s : State) : (s.deliver r).lto = s.lto := rfl
@[simp] theorem State.deliver_retry (r : Result) (s : State) : (s.deliver r).retry = s.retry := rfl
@[simp] theorem State.deliver_history (r : Result) (s : State) : (s.deliver r).history = s.history := rfl
@[simp] theorem State.deliver_fb (r : Result) (s : State) : (s.deliver r).fb = s.fb := rfl
@[simp] theorem State.deliver_txb (r : Result) (s : State) : (s.deliver r).txb = s.txb := rfl
@[simp] theorem State.deliver_cfg (r : Result) (s : State) : (s.deliver r).cfg = s.cfg := rfl
@[simp] theorem State.deliver_result (r : Result) (s : State) : (s.deliver r).result = r := rfl
@[simp] theorem State.deliver_pending (r : Result) (s : State) : (s.deliver r).pending = s.pending := rfl
@[simp] theorem State.deliver_outScript (r : Result) (s : State) : (s.deliver r).outScript = s.outScript := rfl
@[simp] theorem State.deliver_outCalls (r : Result) (s : State) : (s.deliver r).outCalls = s.outCalls := rfl
@[simp] theorem State.deliver_rxScript (r : Result) (s : State) : (s.deliver r).rxScript = s.rxScript := rfl
@[simp] theorem State.deliver_rxCalls (r : Result) (s : State) : (s.deliver r).rxCalls = s.rxCalls := rfl

@[simp] theorem State.raise_st (e : Err) (s : State) : (s.raise e).st = s.st := rfl
@[simp] theorem State.raise_lsa (e : Err) (s : State) : (s.raise e).lsa = s.lsa := rfl
@[simp] theorem State.raise_lto (e : Err) (s : State) : (s.raise e).lto = s.lto := rfl
@[simp] theorem State.raise_retry (e : Err) (s : State) : (s.raise e).retry = s.retry := rfl
@[simp] theorem State.raise_history (e : Err) (s : State) : (s.raise e).history = s.history := rfl
@[simp] theorem State.raise_fb (e : Err) (s : State) : (s.raise e).fb = s.fb := rfl
@[simp] theorem State.raise_txb (e : Err) (s : State) : (s.raise e).txb = s.txb := rfl
@[simp] theorem State.raise_cfg (e : Err) (s : State) : (s.raise e).cfg = s.cfg := rfl
@[simp] theorem State.raise_result (e : Err) (s : State) : (s.raise e).result = .error e := rfl
@[simp] theorem State.raise_pending (e : Err) (s : State) : (s.raise e).pending = s.pending := rfl
@[simp] theorem State.raise_outScript (e : Err) (s : State) : (s.raise e).outScript = s.outScript := rfl
@[simp] theorem State.raise_outCalls (e : Err) (s : State) : (s.raise e).outCalls = s.outCalls := rfl
@[simp] theorem State.raise_rxScript (e : Err) (s : State) : (s.raise e).rxScript = s.rxScript := rfl
@[simp] theorem State.raise_rxCalls (e : Err) (s : State) : (s.raise e).rxCalls = s.rxCalls := rfl

@[simp] theorem State.idle_st (s : State) : (s.idle).st = s.st := rfl
@[simp] theorem State.idle_lsa (s : State) : (s.idle).lsa = s.lsa := rfl
@[simp] theorem State.idle_lto (s : State) : (s.idle).lto = s.lto := rfl
@[simp] theorem State.idle_retry (s : State) : (s.idle).retry = s.retry := rfl
@[simp] theorem State.idle_history (s : State) : (s.idle).history = s.history := rfl
@[simp] theorem State.idle_fb (s : State) : (s.idle).fb = s.fb := rfl
@[simp] theorem State.idle_txb (s : State) : (s.idle).txb = s.txb := rfl
@[simp] theorem State.idle_cfg (s : State) : (s.idle).cfg = s.cfg := rfl
@[simp] theorem State.idle_result (s : State) : (s.idle).result = .tick .idle none false none := rfl
@[simp] theorem State.idle_pending (s : State) : (s.idle).pending = s.pending := rfl
@[simp] theorem State.idle_outScript (s : State) : (s.idle).outScript = s.outScript := rfl
@[simp] theorem State.idle_outCalls (s : State) : (s.idle).outCalls = s.outCalls := rfl
@[simp] theorem State.idle_rxScript (s : State) : (s.idle).rxScript = s.rxScript := rfl
@[simp] theorem State.idle_rxCalls (s : State) : (s.idle).rxCalls = s.rxCalls := rfl

@[simp] theorem State.fillFrame_st (b : List Byte) (s : State) : (s.fillFrame b).st = s.st := rfl
@[simp] theorem State.fillFrame_lsa (b : List Byte) (s : State) : (s.fillFrame b).lsa = s.lsa := rfl
@[simp] theorem State.fillFrame_lto (b : List Byte) (s : State) : (s.fillFrame b).lto = s.lto := rfl
@[simp] theorem State.fillFrame_retry (b : List Byte) (s : State) : (s.fillFrame b).retry = s.retry := rfl
@[simp] theorem State.fillFrame_history (b : List Byte) (s : State) : (s.fillFrame b).history = s.history := rfl
@[simp] theorem State.fillFrame_fb (b : List Byte) (s : State) : (s.fillFrame b).fb = Memory.fill b := rfl
@[simp] theorem State.fillFrame_txb (b : List Byte) (s : State) : (s.fillFrame b).txb = s.txb := rfl
@[simp] theorem State.fillFrame_cfg (b : List Byte) (s : State) : (s.fillFrame b).cfg = s.cfg := rfl
@[simp] theorem State.fillFrame_result (b : List Byte) (s : State) : (s.fillFrame b).result = s.result := rfl
@[simp] theorem State.fillFrame_pending (b : List Byte) (s : State) : (s.fillFrame b).pending = s.pending := rfl
@[simp] theorem State.fillFrame_outScript (b : List Byte) (s : State) : (s.fillFrame b).outScript = s.outScript := rfl
@[simp] theorem State.fillFrame_outCalls (b : List Byte) (s : State) : (s.fillFrame b).outCalls = s.outCalls := rfl
@[simp] theorem State.fillFrame_rxScript (b : List Byte) (s : State) : (s.fillFrame b).rxScript = s.rxScript := rfl
@[simp] theorem State.fillFrame_rxCalls (b : List Byte) (s : State) : (s.fillFrame b).rxCalls = s.rxCalls := rfl

@[simp] theorem State.loadCommand_st (c : Command) (s : State) : (s.loadCommand c).st = s.st := rfl
@[simp] theorem State.loadCommand_lsa (c : Command) (s : State) : (s.loadCommand c).lsa = s.lsa := rfl
@[simp] theorem State.loadCommand_lto (c : Command) (s : State) : (s.loadCommand c).lto = s.lto := rfl
@[simp] theorem State.loadCommand_retry (c : Command) (s : State) : (s.loadCommand c).retry = s.retry := rfl
@[simp] theorem State.loadCommand_history (c : Command) (s : State) : (s.loadCommand c).history = s.history := rfl
@[simp] theorem State.loadCommand_fb (c : Command) (s : State) : (s.loadCommand c).fb = s.fb := rfl
@[simp] theorem State.loadCommand_txb (c : Command) (s : State) : (s.loadCommand c).txb = Memory.fill (commandFrame s.cfg.opc c) := rfl
@[simp] theorem State.loadCommand_cfg (c : Command) (s : State) : (s.loadCommand c).cfg = s.cfg := rfl
@[simp] theorem State.loadCommand_result (c : Command) (s : State) : (s.loadCommand c).result = s.result := rfl
@[simp] theorem State.loadCommand_pending (c : Command) (s : State) : (s.loadCommand c).pending = s.pending := rfl
@[simp] theorem State.loadCommand_outScript (c : Command) (s : State) : (s.loadCommand c).outScript = s.outScript := rfl
@[simp] theorem State.loadCommand_outCalls (c : Command) (s : State) : (s.loadCommand c).outCalls = s.outCalls := rfl
@[simp] theorem State.loadCommand_rxScript (c : Command) (s : State) : (s.loadCommand c).rxScript = s.rxScript := rfl
@[simp] theorem State.loadCommand_rxCalls (c : Command) (s : State) : (s.loadCommand c).rxCalls = s.rxCalls := rfl

@[simp] theorem State.clear_st (now0 : Time) (s : State) : (s.clear now0).st = .dormant := rfl
@[simp] theorem State.clear_lsa (now0 : Time) (s : State) : (s.clear now0).lsa = resetLsa s.cfg.mode now0 := rfl
@[simp] theorem State.clear_lto (now0 : Time) (s : State) : (s.clear now0).lto = 0 := rfl
@[simp] theorem State.clear_retry (now0 : Time) (s : State) : (s.clear now0).retry = 0 := rfl
@[simp] theorem State.clear_history (now0 : Time) (s : State) : (s.clear now0).history = [] := rfl
@[simp] theorem State.clear_fb (now0 : Time) (s : State) : (s.clear now0).fb = [] := rfl
@[simp] theorem State.clear_txb (now0 : Time) (s : State) : (s.clear now0).txb = [] := rfl
@[simp] theorem State.clear_cfg (now0 : Time) (s : State) : (s.clear now0).cfg = s.cfg := rfl
@[simp] theorem State.clear_result (now0 : Time) (s : State) : (s.clear now0).result = .none := rfl
@[simp] theorem State.clear_pending (now0 : Time) (s : State) : (s.clear now0).pending = s.pending := rfl
@[simp] theorem State.clear_outScript (now0 : Time) (s : State) : (s.clear now0).outScript = s.outScript := rfl
@[simp] theorem State.clear_outCalls (now0 : Time) (s : State) : (s.clear now0).outCalls = s.outCalls := rfl
@[simp] theorem State.clear_rxScript (now0 : Time) (s : State) : (s.clear now0).rxScript = s.rxScript := rfl
@[simp] theorem State.clear_rxCalls (now0 : Time) (s : State) : (s.clear now0).rxCalls = s.rxCalls := rfl

@[simp] theorem State.start_st (s : State) : (s.start.s).st = s.st := rfl
@[simp] theorem State.start_lsa (s : State) : (s.start.s).lsa = s.lsa := rfl
@[simp] theorem State.start_lto (s : State) : (s.start.s).lto = s.lto := rfl
@[simp] theorem State.start_retry (s : State) : (s.start.s).retry = s.retry := rfl
@[simp] theorem State.start_history (s : State) : (s.start.s).history = s.history := rfl
@[simp] theorem State.start_fb (s : State) : (s.start.s).fb = s.fb := rfl
@[simp] theorem State.start_txb (s : State) : (s.start.s).txb = s.txb := rfl
@[simp] theorem State.start_cfg (s : State) : (s.start.s).cfg = s.cfg := rfl
@[simp] theorem State.start_result (s : State) : (s.start.s).result = s.result := rfl
@[simp] theorem State.start_pending (s : State) : (s.start.s).pending = s.pending := rfl
@[simp] theorem State.start_outScript (s : State) : (s.start.s).outScript = s.outScript := rfl
@[simp] theorem State.start_outCalls (s : State) : (s.start.s).outCalls = s.outCalls := rfl
@[simp] theorem State.start_rxScript (s : State) : (s.start.s).rxScript = s.rxScript := rfl
@[simp] theorem State.start_rxCalls (s : State) : (s.start.s).rxCalls = s.rxCalls := rfl

@[simp] theorem State.start_ioerr (s : State) : s.start.ioerr = false := rfl

@[simp] theorem InOp.call_st (e : Event) (p : InOp) : (p.call e).s.st = p.s.st := rfl
@[simp] theorem InOp.call_lsa (e : Event) (p : InOp) : (p.call e).s.lsa = p.s.lsa := rfl
@[simp] theorem InOp.call_lto (e : Event) (p : InOp) : (p.call e).s.lto = p.s.lto := rfl
@[simp] theorem InOp.call_retry (e : Event) (p : InOp) : (p.call e).s.retry = p.s.retry := rfl
@[simp] theorem InOp.call_history (e : Event) (p : InOp) : (p.call e).s.history = p.s.history ++ [e] := rfl
@[simp] theorem InOp.call_fb (e : Event) (p : InOp) : (p.call e).s.fb = p.s.fb := rfl
@[simp] theorem InOp.call_txb (e : Event) (p : InOp) : (p.call e).s.txb = p.s.txb := rfl
@[simp] theorem InOp.call_cfg (e : Event) (p : InOp) : (p.call e).s.cfg = p.s.cfg := rfl
@[simp] theorem InOp.call_result (e : Event) (p : InOp) : (p.call e).s.result = p.s.result := rfl
@[simp] theorem InOp.call_pending (e : Event) (p : InOp) : (p.call e).s.pending = p.s.pending := rfl
@[simp] theorem InOp.call_outScript (e : Event) (p : InOp) : (p.call e).s.outScript = p.s.outScript := rfl
@[simp] theorem InOp.call_outCalls (e : Event) (p : InOp) : (p.call e).s.outCalls = p.s.outCalls + 1 := rfl
@[simp] theorem InOp.call_rxScript (e : Event) (p : InOp) : (p.call e).s.rxScript = p.s.rxScript := rfl
@[simp] theorem InOp.call_rxCalls (e : Event) (p : InOp) : (p.call e).s.rxCalls = p.s.rxCalls := rfl
@[simp] theorem InOp.call_ioerr (e : Event) (p : InOp) :
    (p.call e).ioerr = (p.ioerr || p.s.outAnswer p.s.outCalls == .ioError) := rfl

end Sys2Proof.Machine
end

