-- ==== Sys2Proof/Laws/Ops.lean ====
section
/-! SUPPORT. For each shared operation, one lemma that says everything it does. -/

namespace Sys2Proof.Machine

open Sys2Proof

/-- A command frame has seven bytes. -/
@[simp] theorem commandFrame_length (rom : OpcodeRom) (c : Command) : (commandFrame rom c).length = 7 := rfl

/-- `Send(Enc(c))`: the frame in the transmit buffer and in the history, one answer gathered. -/
theorem InOp.sendCommand_eq (c : Command) (p : InOp) :
    p.sendCommand c =
      { s := { p.s with txb := Memory.fill (commandFrame p.s.cfg.opc c),
                        history := p.s.history ++ [.tx (commandFrame p.s.cfg.opc c)],
                        outCalls := p.s.outCalls + 1 },
        ioerr := p.ioerr || p.s.outAnswer p.s.outCalls == .ioError } := by
  simp only [InOp.sendCommand, State.loadCommand, Memory.bytes_fill]
  rfl

theorem State.outFailed_zero (s : State) : s.outFailed 0 = false := rfl

/-- The first of several output calls, then the others from the state after it. -/
theorem State.outFailed_succ (s t : State) (n : Nat) (hs : t.outScript = s.outScript)
    (hc : t.outCalls = s.outCalls + 1) :
    s.outFailed (n + 1) = (s.outAnswer s.outCalls == .ioError || t.outFailed n) := by
  simp only [State.outFailed, List.range_succ_eq_map, List.any_cons, List.any_map, State.outAnswer, hs, hc]
  congr 2
  funext j
  simp [Nat.add_assoc, Nat.add_comm 1 j]

theorem txbAfter_nil (rom : OpcodeRom) (old : Memory) : txbAfter rom [] old = old := rfl

theorem txbAfter_cons (rom : OpcodeRom) (c : Command) (cs : List Command) (old : Memory) :
    txbAfter rom (c :: cs) old = txbAfter rom cs (Memory.fill (commandFrame rom c)) := by
  cases cs with
  | nil => rfl
  | cons d r =>
    simp only [txbAfter, List.getLast?_cons_cons]
    cases h : (d :: r).getLast? with
    | none => simp at h
    | some k => rfl

/-- One `Send` per command of a list. -/
theorem InOp.sendCommands_eq (cs : List Command) (p : InOp) :
    InOp.sendCommands cs p =
      { s := { p.s with txb := txbAfter p.s.cfg.opc cs p.s.txb,
                        history := p.s.history ++ txEvents p.s.cfg.opc cs,
                        outCalls := p.s.outCalls + cs.length },
        ioerr := p.ioerr || p.s.outFailed cs.length } := by
  induction cs generalizing p with
  | nil => simp [InOp.sendCommands, txbAfter_nil, txEvents, State.outFailed_zero]
  | cons c cs ih =>
    rw [InOp.sendCommands, ih, InOp.sendCommand_eq]
    simp only [txbAfter_cons, txEvents, List.map_cons, List.append_assoc, List.singleton_append, List.length_cons,
      InOp.mk.injEq]
    refine ⟨by simp [Nat.add_assoc, Nat.add_comm 1], ?_⟩
    rw [State.outFailed_succ p.s { p.s with outCalls := p.s.outCalls + 1 } cs.length rfl rfl, Bool.or_assoc]
    rfl

/-- `Recv`: the answer and its event, the bytes in the frame buffer. -/
theorem State.recv_eq (s : State) :
    s.recv = (s.rxAnswer s.rxCalls,
      { s with fb := fbAfter (s.rxAnswer s.rxCalls) s.fb,
               history := s.history ++ [.rx 32 s.cfg.rxDeadline (s.rxAnswer s.rxCalls)],
               rxCalls := s.rxCalls + 1 }) := by
  simp only [State.recv]
  cases s.rxAnswer s.rxCalls <;> rfl

/-- The edge out of Dormant. -/
theorem startCycle_eq (now : Time) (s : State) :
    startCycle now s =
      { s with st := .warmingUp, lto := now,
               txb := txbAfter s.cfg.opc s.cfg.wakeSeq s.txb,
               history := s.history ++ txEvents s.cfg.opc s.cfg.wakeSeq,
               outCalls := s.outCalls + s.cfg.wakeSeq.length,
               result := .tick .started none (s.outFailed s.cfg.wakeSeq.length) none } := by
  simp [startCycle, InOp.sendCommands_eq, State.start]

/-- The edge into Sampling in passive mode. -/
theorem enterSampling_passive {s : State} (h : s.cfg.mode = .passive) :
    enterSampling s =
      { s with st := .sampling, retry := 0,
               txb := Memory.fill (commandFrame s.cfg.opc .readPassiveRequest),
               history := s.history ++ [.tx (commandFrame s.cfg.opc .readPassiveRequest)],
               outCalls := s.outCalls + 1,
               result := .tick .warmed none (s.outFailed 1) none } := by
  simp [enterSampling, readRequest, State.start, h, InOp.sendCommand_eq, State.outFailed, List.range_succ]

/-- The edge into Sampling in active mode. -/
theorem enterSampling_active {s : State} (h : s.cfg.mode = .active) :
    enterSampling s = { s with st := .sampling, retry := 0, result := .tick .warmed none false none } := by
  simp [enterSampling, readRequest, State.start, h]

/-- A successful attempt, after its receive. -/
theorem sampleDone_eq (now : Time) (r : Reading) (s : State) :
    sampleDone now r s =
      { s with st := .dormant, lsa := now, retry := 0,
               txb := Memory.fill (commandFrame s.cfg.opc .sleep),
               history := s.history ++ [.record r s.cfg.label, .tx (commandFrame s.cfg.opc .sleep)],
               outCalls := s.outCalls + 2,
               result := .tick .reading none (s.outFailed 2) (some r) } := by
  simp [sampleDone, State.start, InOp.record, InOp.sendCommand_eq, InOp.call, State.outFailed, List.range_succ,
    State.outAnswer, Nat.add_assoc]

/-- How many output calls a failed attempt makes. -/
def discards (e : Err) : Nat := if e.isProtocol then 1 else 0

/-- The discard of a failed attempt. -/
theorem discardAfter_eq (e : Err) (s : State) :
    discardAfter e s.start =
      { s := { s with history := s.history ++ (if e.isProtocol then [.flush] else []),
                      outCalls := s.outCalls + discards e },
        ioerr := s.outFailed (discards e) } := by
  cases h : e.isProtocol <;>
    simp [discardAfter, discards, State.start, InOp.discard, InOp.call, State.outFailed, List.range_succ, h]

/-- A failed attempt that leaves retries. -/
theorem attemptFailed_retry {e : Err} {s : State} (h : retriesLeft s = true) :
    attemptFailed e s =
      { s with retry := s.retry + 1,
               history := s.history ++ (if e.isProtocol then [.flush] else []),
               outCalls := s.outCalls + discards e,
               result := .tick .retrying (some e) (s.outFailed (discards e)) none } := by
  simp [attemptFailed, h, discardAfter_eq]

/-- A failed attempt that exhausts the retries. -/
theorem attemptFailed_exhausted {e : Err} {s : State} (h : retriesLeft s = false) :
    attemptFailed e s =
      { s with st := .dormant, retry := 0,
               history := s.history ++ (if e.isProtocol then [.flush] else []),
               outCalls := s.outCalls + discards e,
               result := .tick .failed (some e) (s.outFailed (discards e)) none } := by
  simp [attemptFailed, h, discardAfter_eq]

/-- A byte sequence handed to the frame codec: the frame buffer is filled if it has 32 bytes, and the parse is
returned. -/
theorem parseBytes_eq (now : Time) (b : List Byte) (s : State) :
    parseBytes now b s =
      { s with fb := if b.length = 32 then Memory.fill b else s.fb,
               result := match parseFrame now b with
                 | .ok r => .parsed r
                 | .error e => .error e } := by
  by_cases h : b.length = 32
  · simp only [parseBytes, h, if_true, State.fillFrame_fb, Memory.bytes_fill, State.deliverParse]
    cases parseFrame now b <;> rfl
  · simp only [parseBytes, h, if_false, State.deliverParse]
    cases parseFrame now b <;> rfl

/-- The encoder: the frame in the transmit buffer and in the result. -/
theorem State.buildCommand_eq (c : Command) (s : State) :
    s.buildCommand c =
      { s with txb := Memory.fill (commandFrame s.cfg.opc c), result := .frame (commandFrame s.cfg.opc c) } := by
  simp only [State.buildCommand, State.loadCommand_txb, Memory.bytes_fill]
  rfl

/-- RESET. -/
theorem execReset_eq (now0 : Time) (s : State) :
    execReset now0 s = .next
      { s with st := .dormant, lsa := resetLsa s.cfg.mode now0, lto := 0, retry := 0,
               history := txEvents s.cfg.opc s.cfg.initSeq, fb := [],
               txb := txbAfter s.cfg.opc s.cfg.initSeq [],
               outCalls := s.outCalls + s.cfg.initSeq.length, result := .none } := by
  simp [execReset, InOp.sendCommands_eq, State.start, State.clear]

end Sys2Proof.Machine
end

