-- ==== Sys2Proof/Laws/PerInstr.lean ====
section
/-! SUPPORT. Facts about every instruction as syntax, one lemma per constructor. -/

namespace Sys2Proof.Laws

open Sys2Proof

/-- The formats of 30_encoding.md R70, and the reset input of R76. -/
inductive Format where
  | cmd7 | data32 | hostop | resetInput
deriving DecidableEq, Repr

/-- The format of an opcode-table row. -/
def Format.ofRow : Instr → Format
  | .sleep => .cmd7
  | .wakeUp => .cmd7
  | .active => .cmd7
  | .passive => .cmd7
  | .read => .cmd7
  | .data _ _ => .data32
  | .nop => .hostop
  | .tick _ => .hostop
  | .parse _ _ => .hostop
  | .encode _ => .hostop
  | .reset _ => .resetInput

/-- Whether a request has a format: the direction and length of a wire word (R70, R79), or the reset input. -/
def Format.fits : Format → Request → Prop
  | .cmd7, r => ∃ b, r = .outbound b ∧ b.length = 7
  | .data32, r => ∃ now b, r = .inbound now b ∧ b.length = 32
  | .hostop, r => ∃ p, r = .host p ∧ p.rst = false
  | .resetInput, r => ∃ p, r = .host p ∧ p.rst = true

/-- A well-formed instruction is encoded in the format of its row. -/
def EncodedFormat.Statement (i : Instr) : Prop :=
  ∀ rom : OpcodeRom, i.WellFormed = true → (Format.ofRow i).fits (encode rom i)

theorem EncodedFormat.sleep : EncodedFormat.Statement .sleep := fun _ _ => ⟨_, rfl, rfl⟩
theorem EncodedFormat.wakeUp : EncodedFormat.Statement .wakeUp := fun _ _ => ⟨_, rfl, rfl⟩
theorem EncodedFormat.active : EncodedFormat.Statement .active := fun _ _ => ⟨_, rfl, rfl⟩
theorem EncodedFormat.passive : EncodedFormat.Statement .passive := fun _ _ => ⟨_, rfl, rfl⟩
theorem EncodedFormat.read : EncodedFormat.Statement .read := fun _ _ => ⟨_, rfl, rfl⟩
theorem EncodedFormat.data (now : Time) (body : List Byte) : EncodedFormat.Statement (.data now body) :=
  fun _ h => ⟨now, _, rfl, by simpa [Instr.WellFormed] using h⟩
theorem EncodedFormat.nop : EncodedFormat.Statement .nop := fun _ _ => ⟨_, rfl, rfl⟩
theorem EncodedFormat.tick (now : Time) : EncodedFormat.Statement (.tick now) := fun _ _ => ⟨_, rfl, rfl⟩
theorem EncodedFormat.parse (now : Time) (b : List Byte) : EncodedFormat.Statement (.parse now b) :=
  fun _ _ => ⟨_, rfl, rfl⟩
theorem EncodedFormat.encode (cmd : BitVec 3) : EncodedFormat.Statement (.encode cmd) := fun _ _ => ⟨_, rfl, rfl⟩
theorem EncodedFormat.reset (now0 : Time) : EncodedFormat.Statement (.reset now0) := fun _ _ => ⟨_, rfl, rfl⟩

end Sys2Proof.Laws
end

