-- ==== Sys2Proof/Laws/Step.lean ====
section
/-! SUPPORT. What a step can do, said once, and a TICK by the state it acts in. -/

namespace Sys2Proof.Machine

open Sys2Proof

/-- Where a step answers a next state, either nothing was presented and nothing has changed, or the first request was
taken and its instruction executed, or it was a byte sequence that is no frame and only the result has changed. -/
theorem step_cases {s t : State} (h : step s = .next t) :
    (s.pending = [] ∧ t = s) ∨
    ∃ r rest, s.pending = r :: rest ∧
      ((∃ i, decode s.cfg.opc r = .ok i ∧ exec i { s with pending := rest } = .next t) ∨
       (∃ e, decode s.cfg.opc r = .error (.notAFrame e) ∧ t = { s with pending := rest, result := .error e })) := by
  unfold step State.fetch at h
  cases hp : s.pending with
  | nil =>
    simp only [hp] at h
    exact .inl ⟨rfl, (Host.Outcome.next.inj h).symm⟩
  | cons r rest =>
    simp only [hp] at h
    refine .inr ⟨r, rest, rfl, ?_⟩
    cases hd : decode s.cfg.opc r with
    | ok i =>
      rw [hd] at h
      exact .inl ⟨i, rfl, h⟩
    | error e =>
      rw [hd] at h
      cases e with
      | notAFrame e => exact .inr ⟨e, rfl, (Host.Outcome.next.inj h).symm⟩
      | notACommand why => cases h

/-- A TICK in Dormant. -/
theorem execTick_dormant {s : State} (h : s.st = .dormant) (now : Time) :
    execTick now s = .next (if gStart s now then startCycle now s else s.idle) := by
  simp only [execTick, h, tickDormant]

/-- A TICK in WarmingUp. -/
theorem execTick_warmingUp {s : State} (h : s.st = .warmingUp) (now : Time) :
    execTick now s = .next (if gWarm s now then enterSampling s else s.idle) := by
  simp only [execTick, h, tickWarmingUp]

/-- A TICK in Sampling. -/
theorem execTick_sampling {s : State} (h : s.st = .sampling) (now : Time) :
    execTick now s = .next (tickSampling now s) := by
  simp only [execTick, h]

/-- Each guard is the conjunction of its two integer comparisons. -/
theorem elapsed_iff (now since span other : Time) :
    elapsed now since span other = true ↔
      (now.toNat : Int) - since.toNat > span.toNat ∧ (since.toNat : Int) ≥ other.toNat := by
  simp only [elapsed, Bool.and_eq_true, decide_eq_true_eq]

end Sys2Proof.Machine
end

