-- ==== Sys2Proof/Tests/Slice0.lean ====
section
/-! SUPPORT. The model's own tests: expected values are those of spec/95_test_vectors.md (V-..., S..., P...) and of the
encodings of 30_encoding.md, worked out by hand there. Then, for each obligation that has hypotheses, a concrete state
and operands that meet them. -/

namespace Sys2Proof.Tests

open Sys2Proof Sys2Proof.Machine

/-! ## Builders -/

/-- The state an instruction leaves; no instruction faults or is refused. -/
def after (i : Instr) (s : State) : State :=
  match exec i s with
  | .next t => t
  | .fault _ => s
  | .refused _ => s

/-- The state a step leaves, or the state itself where the step is refused. -/
def stepped (s : State) : State :=
  match step s with
  | .next t => t
  | .fault _ => s
  | .refused _ => s

/-- A passive session with `SI` = 30, `WD` = 20, `RETRY_MAX` = 3 and a given state, timestamps and answers. -/
def session (st : St) (lsa lto : Time) (retry : BitVec 8) (rx : List RxAnswer) : State :=
  { State.reset with st := st, lsa := lsa, lto := lto, retry := retry, rxScript := rx,
                     outScript := List.replicate 4 .ok }

/-- The same session in active mode. -/
def activeMode (s : State) : State := { s with cfg := { s.cfg with mode := .active } }

/-- The same session with another retry ceiling. -/
def ceiling (n : BitVec 8) (s : State) : State := { s with cfg := { s.cfg with retryMax := n } }

/-- A ROM with other bytes for `SLEEP` and `WAKEUP`. -/
def romWith (sleep wakeUp : OpEntry) : OpcodeRom := { OpcodeRom.default with sleep := sleep, wakeUp := wakeUp }

/-- Frame `F1` of 95_test_vectors.md. -/
def f1 : Frame32 :=
  ⟨[0x42, 0x4D, 0x00, 0x1C, 0x00, 0x01, 0x00, 0x02, 0x00, 0x03, 0x00, 0x04, 0x00, 0x05, 0x00, 0x06,
    0x00, 0x07, 0x00, 0x08, 0x00, 0x09, 0x00, 0x0A, 0x00, 0x0B, 0x00, 0x0C, 0x00, 0x00, 0x00, 0xF9], rfl⟩

/-- Frame `F2` of 95_test_vectors.md. -/
def f2 : Frame32 :=
  ⟨[0x42, 0x4D, 0x00, 0x1C, 0x00, 0x08, 0x00, 0x0C, 0x00, 0x0E, 0x00, 0x08, 0x00, 0x0C, 0x00, 0x0E,
    0x05, 0xDC, 0x01, 0xA4, 0x00, 0x50, 0x00, 0x0A, 0x00, 0x02, 0x00, 0x01, 0x97, 0x00, 0x03, 0x69], rfl⟩

/-- Frame `F2c`: `F2` with byte 10 changed to 01. -/
def f2c : Frame32 := ⟨f2.val.set 10 0x01, rfl⟩

/-- Frame `F2s`: `F2` with byte 0 changed to 4D. -/
def f2s : Frame32 := ⟨f2.val.set 0 0x4D, rfl⟩

/-- The frame of V-P3, with the largest sum. -/
def fMax : List Byte := [0x42, 0x4D] ++ List.replicate 28 0xFF ++ [0x1C, 0x73]

/-- The frame of V-P4, with the smallest sum. -/
def fMin : List Byte := [0x42, 0x4D] ++ List.replicate 28 0x00 ++ [0x00, 0x8F]

/-- The frame of V-P5. -/
def fTie : List Byte :=
  [0x42, 0x4D, 0xAA, 0x55, 0x12, 0x34, 0x56, 0x78, 0x9A, 0xBC, 0xDE, 0xF0, 0x01, 0x02, 0x03, 0x04,
   0xB4, 0xF7, 0x00, 0x00, 0x00, 0x00, 0x00, 0x00, 0x00, 0x00, 0x00, 0x00, 0x12, 0x34, 0x07, 0xC1]

/-- The frame of V-D2, with the most negative count. -/
def fNeg : List Byte :=
  [0x42, 0x4D, 0x00, 0x1C] ++ List.replicate 18 0x00 ++ [0xFF, 0xFF] ++ List.replicate 6 0x00 ++ [0x02, 0xA9]

/-- The frame of V-D3, with the largest count. -/
def fPos : List Byte :=
  [0x42, 0x4D, 0x00, 0x1C] ++ List.replicate 12 0x00 ++ [0xFF, 0xFF] ++ List.replicate 12 0x00 ++ [0x02, 0xA9]

/-! ## Well-formedness: each check refuses an ill-formed term -/

theorem test_data_of_29_bytes_is_ill_formed : (Instr.data 0 (List.replicate 29 0)).WellFormed = false := by decide
theorem test_data_of_31_bytes_is_ill_formed : (Instr.data 0 (List.replicate 31 0)).WellFormed = false := by decide
theorem test_data_of_30_bytes_is_well_formed : (Instr.data 0 (List.replicate 30 0)).WellFormed = true := by decide

/-! ## Decoding: a word of every row, bit by bit from its encoding (R71, R72, R75, R76, R81) -/

theorem test_decode_sleep :
    decodeTableWord 56 (0b01000010#8 ++ 0b01001101#8 ++ 0b11100100#8 ++ 0b00000000#8 ++ 0b00000000#8 ++
      0b00000001#8 ++ 0b01110011#8).toNat = some .sleep := by decide

theorem test_decode_wakeup :
    decodeTableWord 56 (0b01000010#8 ++ 0b01001101#8 ++ 0b11100100#8 ++ 0b00000000#8 ++ 0b00000001#8 ++
      0b00000001#8 ++ 0b01110100#8).toNat = some .wakeUp := by decide

theorem test_decode_active :
    decodeTableWord 56 (0b01000010#8 ++ 0b01001101#8 ++ 0b11100001#8 ++ 0b00000000#8 ++ 0b00000001#8 ++
      0b00000001#8 ++ 0b01110001#8).toNat = some .active := by decide

theorem test_decode_passive :
    decodeTableWord 56 (0b01000010#8 ++ 0b01001101#8 ++ 0b11100001#8 ++ 0b00000000#8 ++ 0b00000000#8 ++
      0b00000001#8 ++ 0b01110000#8).toNat = some .passive := by decide

theorem test_decode_read :
    decodeTableWord 56 (0b01000010#8 ++ 0b01001101#8 ++ 0b11100010#8 ++ 0b00000000#8 ++ 0b00000000#8 ++
      0b00000001#8 ++ 0b01110001#8).toNat = some .read := by decide

theorem test_decode_data :
    decodeTableWord 256 (0b01000010#8 ++ 0b01001101#8 ++ 0#232 ++ 0b10000001#8).toNat =
      some (.data 0 (List.replicate 29 0 ++ [0b10000001])) := by decide

theorem test_decode_nop : decodeTableWord 2 0b00 = some .nop := by decide
theorem test_decode_tick : decodeTableWord 2 0b01 = some (.tick 0) := by decide
theorem test_decode_parse : decodeTableWord 2 0b10 = some (.parse 0 []) := by decide
theorem test_decode_encode : decodeTableWord 2 0b11 = some (.encode 0) := by decide
theorem test_decode_reset : decodeTableWord 1 0b1 = some (.reset 0) := by decide

theorem test_decode_operands_travel_beside_the_code :
    decode OpcodeRom.default (.host ⟨false, 0b01, 131, 4, [7]⟩) = .ok (.tick 131) ∧
    decode OpcodeRom.default (.host ⟨false, 0b10, 131, 4, [7]⟩) = .ok (.parse 131 [7]) ∧
    decode OpcodeRom.default (.host ⟨false, 0b11, 131, 4, [7]⟩) = .ok (.encode 4) ∧
    decode OpcodeRom.default (.host ⟨true, 0b10, 131, 4, [7]⟩) = .ok (.reset 131) := by decide

theorem test_decode_rejects_commands_by_name :
    decode OpcodeRom.default (.outbound [0x42, 0x4D, 0xE4, 0, 0, 1]) = .error (.notACommand .notSevenBytes) ∧
    decode OpcodeRom.default (.outbound [0x42, 0x4C, 0xE4, 0, 0, 1, 0x72]) = .error (.notACommand .badPrefix) ∧
    decode OpcodeRom.default (.outbound [0x42, 0x4D, 0xE2, 0, 0, 0, 0xC6]) = .error (.notACommand .badChecksum) ∧
    decode OpcodeRom.default (.outbound [0x42, 0x4D, 0xE3, 0, 0, 1, 0x72]) = .error (.notACommand .unknownOpcode) := by
  decide

theorem test_decode_rejects_frames_by_name :
    decode OpcodeRom.default (.inbound 0 (f2.val.take 31)) = .error (.notAFrame .frameTooShort) ∧
    decode OpcodeRom.default (.inbound 0 (f2.val ++ [0])) = .error (.notAFrame .frameTooShort) ∧
    decode OpcodeRom.default (.inbound 0 f2s.val) = .error (.notAFrame .badSync) := by decide

/-! ## Codes (R22, R26, R77, R178, R200) -/

theorem test_codes_of_states_and_modes :
    [St.dormant, .warmingUp, .sampling].map St.code = [0, 1, 2] ∧ [Mode.passive, .active].map Mode.code = [0, 1] := by
  decide

theorem test_codes_of_results :
    [Res.idle, .started, .warmed, .reading, .retrying, .failed].map Res.code = [0, 1, 2, 3, 4, 5] := by decide

theorem test_codes_of_errors :
    [Err.frameTooShort, .badSync, .checksumMismatch, .invalidModeError, .ioError, .timeoutError].map Err.code =
      [1, 2, 3, 4, 5, 6] := by decide

theorem test_codes_of_commands :
    ([0, 1, 2, 3, 4, 5, 6, 7] : List (BitVec 3)).map Command.ofCode =
      [some .sleep, some .wakeUp, some .activeMode, some .passiveMode, some .readPassiveRequest, none, none, none] := by
  decide

/-! ## The command encoder (V-E1 to V-E9) -/

theorem test_sleep_frame :
    (after .sleep State.reset).result = .frame [0x42, 0x4D, 0xE4, 0x00, 0x00, 0x01, 0x73] := by decide
theorem test_wakeup_frame :
    (after .wakeUp State.reset).result = .frame [0x42, 0x4D, 0xE4, 0x00, 0x01, 0x01, 0x74] := by decide
theorem test_active_frame :
    (after .active State.reset).result = .frame [0x42, 0x4D, 0xE1, 0x00, 0x01, 0x01, 0x71] := by decide
theorem test_passive_frame :
    (after .passive State.reset).result = .frame [0x42, 0x4D, 0xE1, 0x00, 0x00, 0x01, 0x70] := by decide
theorem test_read_frame :
    (after .read State.reset).result = .frame [0x42, 0x4D, 0xE2, 0x00, 0x00, 0x01, 0x71] := by decide
theorem test_encode_sends_nothing :
    (after (.encode 4) State.reset).result = .frame [0x42, 0x4D, 0xE2, 0x00, 0x00, 0x01, 0x71] ∧
    (after (.encode 4) State.reset).history = [] := by decide
theorem test_encode_refuses_codes_5_to_7 :
    [5, 6, 7].map (fun c => (after (.encode c) State.reset).result) =
      [.error .invalidModeError, .error .invalidModeError, .error .invalidModeError] := by decide
theorem test_checksum_extremes_of_commands :
    commandFrame (romWith ⟨0xFF, 0xFF, 0xFF⟩ ⟨0x71, 0, 0⟩) .sleep = [0x42, 0x4D, 0xFF, 0xFF, 0xFF, 0x03, 0x8C] ∧
    commandFrame (romWith ⟨0, 0, 0⟩ ⟨0x71, 0, 0⟩) .sleep = [0x42, 0x4D, 0x00, 0x00, 0x00, 0x00, 0x8F] ∧
    commandFrame (romWith ⟨0, 0, 0⟩ ⟨0x71, 0, 0⟩) .wakeUp = [0x42, 0x4D, 0x71, 0x00, 0x00, 0x01, 0x00] := by decide

/-! ## The frame codec and the reading decoder (V-P1 to V-P16, V-D1 to V-D4) -/

/-- The error of a parse, none where it gives a Reading. -/
def parseError (b : List Byte) : Option Err :=
  match parseFrame 0 b with
  | .ok _ => none
  | .error e => some e

theorem test_parse_reading :
    (after (.parse 153 f2.val) State.reset).result =
      .parsed ⟨8, 12, 14, 8, 12, 14, 1500, 420, 80, 10, 2, 1, 1490, 88, 153⟩ := by decide

theorem test_parse_arbitrary_reserved_bytes :
    (after (.parse 0 fTie) State.reset).result =
      .parsed ⟨4660, 22136, 39612, 57072, 258, 772, 46327, 0, 0, 0, 0, 0, 46327, 2728, 0⟩ := by decide

theorem test_data_reading :
    (after (.data 7 (f1.val.drop 2)) State.reset).result =
      .parsed ⟨1, 2, 3, 4, 5, 6, 7, 8, 9, 10, 11, 12, -3, 0, 7⟩ := by decide

theorem test_data_checksum_mismatch :
    (after (.data 7 (f2c.val.drop 2)) State.reset).result = .error .checksumMismatch := by decide

theorem test_parse_errors :
    parseError [] = some .frameTooShort ∧ parseError (f2.val.take 31) = some .frameTooShort ∧
    parseError (f2.val ++ [0]) = some .frameTooShort ∧ parseError (f2.val.set 0 0x43) = some .badSync ∧
    parseError (f2.val.set 1 0x4C) = some .badSync ∧ parseError ((f2.val.set 0 0).set 31 0) = some .badSync ∧
    parseError (f2.val.set 2 0x01) = some .checksumMismatch ∧ parseError (f2.val.set 29 0x01) = some .checksumMismatch ∧
    parseError (f2.val.set 30 0x02) = some .checksumMismatch ∧ parseError fMax = none ∧ parseError fMin = none := by
  decide

theorem test_parse_signed_count :
    (decodeReading 0 fNeg).count.toInt = -65535 ∧ (decodeReading 0 fNeg).est10.toInt = -3858 ∧
    (decodeReading 0 fPos).count.toInt = 65535 ∧ (decodeReading 0 fPos).est10.toInt = 3858 := by decide

theorem test_estimate_table :
    ([0, 1, 8, 9, 25, 26, 42, 43, 100, 1000, 1420, 1490, 10000, 46327, 65535, -1, -3, -8, -9, -65535] : List Int).map
      est10Of = [0, 0, 0, 1, 1, 2, 2, 3, 6, 59, 84, 88, 589, 2728, 3858, 0, 0, 0, -1, -3858] := by decide

/-! ## The scheduler and RESET (V-S1 to V-S9, P1) -/

theorem test_start_guard :
    [gStart (session .dormant 0 0 0 []) 1000, gStart (session .dormant 0 0 0 []) 30,
     gStart (session .dormant 0 0 0 []) 31, gStart (session .dormant 0 0 0 []) 0,
     gStart (session .dormant 100 0 0 []) 130, gStart (session .dormant 100 0 0 []) 131,
     gStart (session .dormant 153 131 0 []) 184, gStart (session .dormant 0 31 0 []) 100000,
     gStart (session .dormant 100 0 0 []) 50] =
    [true, false, true, false, false, true, true, false, false] := by decide

theorem test_warm_guard :
    [gWarm (session .warmingUp 0 1000 0 []) 1021, gWarm (session .warmingUp 0 1000 0 []) 1020,
     gWarm (session .warmingUp 0 1000 0 []) 1000, gWarm (session .warmingUp 100 131 0 []) 151,
     gWarm (session .warmingUp 100 131 0 []) 152] = [true, false, false, false, true] := by decide

theorem test_tick_success :
    let t := after (.tick 153) (session .sampling 100 131 2 [.bytes f2])
    t.st = .dormant ∧ t.lsa = 153 ∧ t.lto = 131 ∧ t.retry = 0 ∧
    t.history = [.rx 32 0 (.bytes f2),
      .record ⟨8, 12, 14, 8, 12, 14, 1500, 420, 80, 10, 2, 1, 1490, 88, 153⟩ "",
      .tx [0x42, 0x4D, 0xE4, 0x00, 0x00, 0x01, 0x73]] := by decide

theorem test_tick_exhaustion :
    let t := after (.tick 56) (ceiling 2 (session .sampling 0 31 2 [.bytes f2s]))
    t.st = .dormant ∧ t.lsa = 0 ∧ t.lto = 31 ∧ t.retry = 0 ∧
    t.history = [.rx 32 0 (.bytes f2s), .flush] ∧ t.result = .tick .failed (some .badSync) false none := by decide

theorem test_reset_in_either_mode :
    let t := after (.reset 100) (session .sampling 7 8 1 [])
    t.st = .dormant ∧ t.lsa = 100 ∧ t.lto = 0 ∧ t.retry = 0 ∧ t.history = [] ∧
    (after (.reset 100) (activeMode (session .sampling 7 8 1 []))).lsa = 0 := by decide

theorem test_nop : after .nop (session .sampling 7 8 1 []) = session .sampling 7 8 1 [] := by decide

theorem test_reset_sends_init_seq :
    (after (.reset 100) { State.reset with cfg := { Config.default with initSeqPassive := [.wakeUp, .passiveMode] } }).history =
      [.tx [0x42, 0x4D, 0xE4, 0x00, 0x01, 0x01, 0x74], .tx [0x42, 0x4D, 0xE1, 0x00, 0x00, 0x01, 0x70]] := by decide

/-! ## Fetching -/

theorem test_fetch_word :
    (stepped (State.reset.withFetchWord 56 0x424DE200000171)).result =
      .frame [0x42, 0x4D, 0xE2, 0x00, 0x00, 0x01, 0x71] := by decide

/-! ## Witnesses: for each obligation with hypotheses, a state and operands that meet them all -/

/-- A host operation at the ports. -/
def port (rst : Bool) (op : BitVec 2) : HostPort := ⟨rst, op, 131, 4, [7]⟩

/-- The reset state with requests presented. -/
def presented (rs : List Request) : State := { State.reset with pending := rs }

theorem witness_StepRunsDecodedInstruction :
    (presented [tickRequest 31]).pending = tickRequest 31 :: [] ∧
    decode (presented [tickRequest 31]).cfg.opc (tickRequest 31) = .ok (.tick 31) ∧
    (Instr.tick 31).WellFormed = true ∧ State.reset.pending = [] := by decide

theorem witness_NopDoesNothing : (port false 0).rst = false ∧ (port false 0).op = 0 := by decide

theorem witness_HostPortSelectsOperation :
    (port true 2).rst = true ∧
    ((port false 0).rst = false ∧ (port false 0).op = 0) ∧ ((port false 1).rst = false ∧ (port false 1).op = 1) ∧
    ((port false 2).rst = false ∧ (port false 2).op = 2) ∧ ((port false 3).rst = false ∧ (port false 3).op = 3) := by
  decide

theorem witness_DecodeOfEncodeIsTheInstruction :
    romDistinct OpcodeRom.default ∧ (Instr.data 0xFFFFFFFF (List.replicate 30 0xFF)).WellFormed = true ∧
    Instr.sleep.WellFormed = true := by
  refine ⟨?_, by decide, by decide⟩
  intro c d
  cases c <;> cases d <;> decide

theorem witness_WireWordsHaveOneEncoding :
    ((∀ p, Request.outbound [0x42, 0x4D, 0xE4, 0, 0, 1, 0x73] ≠ .host p) ∧
      decode OpcodeRom.default (.outbound [0x42, 0x4D, 0xE4, 0, 0, 1, 0x73]) = .ok .sleep) ∧
    ((∀ p, Request.inbound 9 f1.val ≠ .host p) ∧
      decode OpcodeRom.default (.inbound 9 f1.val) = .ok (.data 9 (f1.val.drop 2))) := by
  refine ⟨⟨?_, by decide⟩, ⟨?_, by decide⟩⟩ <;> exact fun _ h => Request.noConfusion h

theorem witness_DataWordFieldPositions :
    (0x424D * 2 ^ 240 < 2 ^ 256 ∧ 0x424D * 2 ^ 240 / 2 ^ 240 = 0x424D) ∧
    (0x424E * 2 ^ 240 - 1 < 2 ^ 256 ∧ (0x424E * 2 ^ 240 - 1) / 2 ^ 240 = 0x424D) := by decide

theorem witness_RequestsThatAreNoInstruction :
    ((presented [.inbound 5 (f2.val.take 31)]).pending = .inbound 5 (f2.val.take 31) :: [] ∧
      (f2.val.take 31).length ≠ 32 ∧ (f2.val ++ [0]).length ≠ 32) ∧
    ((presented [.inbound 5 f2s.val]).pending = .inbound 5 f2s.val :: [] ∧ f2s.val.length = 32 ∧
      ¬(byteAt f2s.val 0 = 0x42 ∧ byteAt f2s.val 1 = 0x4D)) ∧
    ((presented [.outbound [1, 2]]).pending = .outbound [1, 2] :: [] ∧
      ∀ c, [1, 2] ≠ commandFrame (presented [.outbound [1, 2]]).cfg.opc c) := by
  refine ⟨by decide, by decide, by decide, ?_⟩
  intro c
  cases c <;> decide

theorem witness_ChecksumIsSumModulo65536 :
    (f1.val.length = 32 ∧ f1.val[0]? = some 0x42 ∧ f1.val[1]? = some 0x4D) ∧
    (List.replicate 5 (0xFF : Byte)).length = 5 ∧ (List.replicate 30 (0xFF : Byte)).length = 30 := by decide

theorem witness_EncodeByCode :
    ([Command.sleep, .wakeUp, .activeMode, .passiveMode, .readPassiveRequest][0]? = some .sleep ∧
      [Command.sleep, .wakeUp, .activeMode, .passiveMode, .readPassiveRequest][4]? = some .readPassiveRequest) ∧
    (5 ≤ (5 : BitVec 3).toNat ∧ 5 ≤ (7 : BitVec 3).toNat) ∧
    exec (.tick 0) State.reset = .next (after (.tick 0) State.reset) :=
  ⟨by decide, by decide, rfl⟩

theorem witness_CommandFrameLaws :
    OpcodeRom.default.entry .sleep ≠ OpcodeRom.default.entry .wakeUp := by decide

theorem witness_ParseChecksLength :
    ((f1.val.take 31).length ≠ 32 ∧ (f1.val ++ [0]).length ≠ 32) ∧
    exec (.tick 0) State.reset = .next (after (.tick 0) State.reset) ∧
    (Instr.parse 0 []).WellFormed = true ∧ exec (.parse 0 []) State.reset = .next (after (.parse 0 []) State.reset) ∧
    (after (.parse 0 []) State.reset).result = .error .frameTooShort :=
  ⟨by decide, rfl, by decide, rfl, by decide⟩

theorem witness_ParseChecksSync :
    (f2s.val.length = 32 ∧ ¬(f2s.val[0]? = some 0x42 ∧ f2s.val[1]? = some 0x4D)) ∧
    ((f2.val.set 1 0x4C).length = 32 ∧ ¬((f2.val.set 1 0x4C)[0]? = some 0x42 ∧ (f2.val.set 1 0x4C)[1]? = some 0x4D)) := by
  decide

theorem witness_ParseChecksChecksum :
    (f2c.val.length = 32 ∧ f2c.val[0]? = some 0x42 ∧ f2c.val[1]? = some 0x4D ∧
      ((f2c.val.take 30).map BitVec.toNat).sum % 65536 ≠
        256 * (byteAt f2c.val 30).toNat + (byteAt f2c.val 31).toNat) ∧
    (fMax.length = 32 ∧ fMax[0]? = some 0x42 ∧ fMax[1]? = some 0x4D ∧
      ((fMax.take 30).map BitVec.toNat).sum % 65536 = 256 * (byteAt fMax 30).toNat + (byteAt fMax 31).toNat) := by
  decide

theorem witness_BuffersHoldTheLastFrame :
    (f2c.val.length = 32 ∧ exec (.parse 0 f2c.val) State.reset = .next (after (.parse 0 f2c.val) State.reset)) ∧
    ([Command.sleep, .wakeUp, .activeMode, .passiveMode, .readPassiveRequest][4]? = some .readPassiveRequest ∧
      exec (.encode (BitVec.ofNat 3 4)) State.reset = .next (after (.encode (BitVec.ofNat 3 4)) State.reset)) :=
  ⟨⟨by decide, rfl⟩, by decide, rfl⟩

theorem witness_EstimateIsNearestTenth :
    (decodeReading 0 fNeg).count.toInt = -(decodeReading 0 fPos).count.toInt := by decide

/-- Bytes 2, 3, 28 and 29 of `F1` changed: a frame with the same payload. -/
def f1Reserved : List Byte := ((f1.val.set 2 0xAA).set 3 0x55).set 29 0x01

theorem witness_ReadingDependsOnPayloadOnly :
    (∀ i, 4 ≤ i → i < 28 → byteAt f1.val i = byteAt f1Reserved i) ∧
    (byteAt f1.val 16 = byteAt f1Reserved 16 ∧ byteAt f1.val 17 = byteAt f1Reserved 17 ∧
      byteAt f1.val 22 = byteAt f1Reserved 22 ∧ byteAt f1.val 23 = byteAt f1Reserved 23) ∧
    parseFrame 0 f2s.val = .error .badSync ∧ parseFrame 0 f1.val = .ok (decodeReading 0 f1.val) := by
  refine ⟨?_, by decide, by decide, by decide⟩
  intro i h4 h28
  interval_cases i <;> decide

theorem witness_DataFrameIsParsed :
    ((f1.val.drop 2).length = 30 ∧
      (((0x42 :: 0x4D :: f1.val.drop 2).take 30).map BitVec.toNat).sum =
        256 * (byteAt (f1.val.drop 2) 28).toNat + (byteAt (f1.val.drop 2) 29).toNat) ∧
    ((f2c.val.drop 2).length = 30 ∧
      (((0x42 :: 0x4D :: f2c.val.drop 2).take 30).map BitVec.toNat).sum ≠
        256 * (byteAt (f2c.val.drop 2) 28).toNat + (byteAt (f2c.val.drop 2) 29).toNat) := by decide

theorem witness_OneChangedByteIsCaught :
    parseFrame 0 f2.val = .ok (decodeReading 0 f2.val) ∧
    (0 < 32 ∧ (0x4D : Byte) ≠ byteAt f2.val 0) ∧ (1 < 32 ∧ (0x4C : Byte) ≠ byteAt f2.val 1) ∧
    (2 < 32 ∧ (0x01 : Byte) ≠ byteAt f2.val 2) ∧ (31 < 32 ∧ (0x68 : Byte) ≠ byteAt f2.val 31) := by decide

theorem witness_SumKeepingChangesPass :
    parseFrame 0 f2.val = .ok (decodeReading 0 f2.val) ∧ 2 ≤ 2 ∧ 2 < 30 ∧ 2 ≤ 28 ∧ 28 < 30 ∧ 2 ≠ 28 ∧
    (byteAt f2.val 2).toNat < 255 ∧ 0 < (byteAt f2.val 28).toNat := by decide

theorem witness_ValidChecksumRange :
    parseFrame 0 fMin = .ok (decodeReading 0 fMin) ∧ parseFrame 0 fMax = .ok (decodeReading 0 fMax) := by decide

/-- The cycle invariant of a session in WarmingUp or Sampling. -/
theorem cycleInv_of {s : State} (h : s.retry.toNat ≤ s.cfg.retryMax.toNat) (h0 : s.st ≠ .sampling → s.retry = 0)
    (hl : s.st ≠ .dormant → s.lsa.toNat < s.lto.toNat) : s.CycleInv := ⟨h, h0, hl⟩

theorem witness_GuardsAreIntegerComparisons :
    (session .warmingUp 100 131 0 []).CycleInv ∧ (session .warmingUp 100 131 0 []).st = .warmingUp :=
  ⟨cycleInv_of (by decide) (by decide) (by decide), rfl⟩

theorem witness_TickInDormant :
    let s := session .dormant 100 0 0 []
    s.st = .dormant ∧
    (((131 : Time).toNat : Int) - s.lsa.toNat > s.cfg.si.toNat ∧ s.lsa.toNat ≥ s.lto.toNat) ∧
    ¬(((130 : Time).toNat : Int) - s.lsa.toNat > s.cfg.si.toNat ∧ s.lsa.toNat ≥ s.lto.toNat) := by decide

theorem witness_TickInWarmingUp :
    let s := session .warmingUp 100 131 0 []
    s.st = .warmingUp ∧ s.cfg.mode = .passive ∧ (activeMode s).st = .warmingUp ∧ (activeMode s).cfg.mode = .active ∧
    (((152 : Time).toNat : Int) - s.lto.toNat > s.cfg.wd.toNat ∧ s.lto.toNat ≥ s.lsa.toNat) ∧
    (((152 : Time).toNat : Int) - (activeMode s).lto.toNat > (activeMode s).cfg.wd.toNat ∧
      (activeMode s).lto.toNat ≥ (activeMode s).lsa.toNat) ∧
    ¬(((151 : Time).toNat : Int) - s.lto.toNat > s.cfg.wd.toNat ∧ s.lto.toNat ≥ s.lsa.toNat) := by decide

theorem witness_TickInSamplingSucceeds :
    let s := session .sampling 100 131 0 [.bytes f2]
    s.st = .sampling ∧ s.rxAnswer s.rxCalls = .bytes f2 ∧ parseFrame 153 f2.val = .ok (decodeReading 153 f2.val) :=
  ⟨rfl, rfl, by decide⟩

theorem witness_TickInSamplingFails :
    (let s := session .sampling 100 131 2 [.timeoutError]
     s.st = .sampling ∧ attemptError (s.rxAnswer s.rxCalls) = some .timeoutError ∧
       s.retry.toNat < s.cfg.retryMax.toNat) ∧
    (let s := session .sampling 100 131 3 [.bytes f2c]
     s.st = .sampling ∧ attemptError (s.rxAnswer s.rxCalls) = some .checksumMismatch ∧
       ¬ s.retry.toNat < s.cfg.retryMax.toNat) := by decide

theorem witness_TickTakesAtMostOneEdge :
    exec (.tick 131) (session .dormant 100 0 0 []) = .next (after (.tick 131) (session .dormant 100 0 0 [])) := rfl

theorem witness_SamplingOnlyAfterWarmUp :
    (let s := session .warmingUp 100 131 0 []
     exec (.tick 152) s = .next (after (.tick 152) s) ∧ s.st ≠ .sampling ∧ (after (.tick 152) s).st = .sampling) ∧
    (let s := session .dormant 100 0 0 []
     exec (.tick 131) s = .next (after (.tick 131) s) ∧ s.st ≠ .warmingUp ∧ (after (.tick 131) s).st = .warmingUp) ∧
    (let s := session .warmingUp 100 131 0 []
     exec (.tick 151) s = .next (after (.tick 151) s) ∧ s.st = .warmingUp ∧ (after (.tick 151) s).st = .warmingUp) :=
  ⟨⟨rfl, by decide, by decide⟩, ⟨rfl, by decide, by decide⟩, ⟨rfl, by decide, by decide⟩⟩

theorem witness_OnlyTickAndResetChangeRegisters :
    exec (.parse 7 f1.val) State.reset = .next (after (.parse 7 f1.val) State.reset) := rfl

theorem witness_FirstCycleAfterReset :
    (let s := activeMode (session .sampling 7 8 1 [])
     exec (.reset 100) s = .next (after (.reset 100) s) ∧ s.cfg.mode = .active ∧
       s.cfg.si.toNat < (31 : Time).toNat ∧ (30 : Time).toNat ≤ s.cfg.si.toNat) ∧
    (let s := session .sampling 7 8 1 []
     exec (.reset 100) s = .next (after (.reset 100) s) ∧ s.cfg.mode = .passive ∧
       (100 : Time).toNat + s.cfg.si.toNat < (131 : Time).toNat ∧
       (130 : Time).toNat ≤ (100 : Time).toNat + s.cfg.si.toNat) :=
  ⟨⟨rfl, by decide, by decide, by decide⟩, ⟨rfl, by decide, by decide, by decide⟩⟩

theorem witness_FailedCycleEndsInDeadEnd :
    let s := session .sampling 0 31 3 [.ioError]
    s.CycleInv ∧ exec (.tick 53) s = .next (after (.tick 53) s) ∧
    ∃ err io rd, (after (.tick 53) s).result = .tick .failed err io rd :=
  ⟨cycleInv_of (by decide) (by decide) (by decide), rfl, some .ioError, false, none, by decide⟩

/-- A session in the dead end with a TICK, an ENCODE, a frame and a byte sequence that is no frame presented. -/
def deadEnd : State :=
  { session .dormant 0 31 0 [] with
    pending := [.inbound 9 (f1.val.take 31), tickRequest 1000, hostRequest 3 0 4 [], .inbound 9 f1.val] }

theorem witness_DeadEndLastsUntilReset :
    (deadEnd.DeadEnd ∧ (∀ p rest, deadEnd.pending = .host p :: rest → p.rst = false) ∧
      step deadEnd = .next (stepped deadEnd)) ∧
    ((stepped deadEnd).DeadEnd ∧ (∀ p rest, (stepped deadEnd).pending = .host p :: rest → p.rst = false) ∧
      step (stepped deadEnd) = .next (stepped (stepped deadEnd))) := by
  refine ⟨⟨⟨by decide, by decide⟩, ?_, rfl⟩, ⟨by decide, by decide⟩, ?_, rfl⟩
  · intro p rest h
    injection h with h
    cases h
  · intro p rest h
    replace h : tickRequest 1000 :: _ = Request.host p :: rest := h
    injection h with h
    cases h
    rfl

theorem witness_DeadEndLastsForEver :
    deadEnd.DeadEnd ∧ (∀ p, .host p ∈ deadEnd.pending → p.rst = false) ∧
    (∀ r ∈ deadEnd.pending, (∃ i, decode deadEnd.cfg.opc r = .ok i) ∨ ∃ now b, r = .inbound now b) ∧
    Sys2Proof.core.run 2 deadEnd = .next (stepped (stepped deadEnd)) := by
  refine ⟨⟨by decide, by decide⟩, ?_, ?_, rfl⟩
  · intro p h
    simp only [deadEnd, tickRequest, hostRequest, List.mem_cons, List.not_mem_nil, or_false, false_or, reduceCtorEq,
      Request.host.injEq] at h
    rcases h with rfl | rfl <;> rfl
  · intro r h
    simp only [deadEnd, List.mem_cons, List.not_mem_nil, or_false] at h
    rcases h with rfl | rfl | rfl | rfl
    · exact .inr ⟨_, _, rfl⟩
    · exact .inl ⟨.tick 1000, by decide⟩
    · exact .inl ⟨.encode 4, by decide⟩
    · exact .inr ⟨_, _, rfl⟩

theorem witness_FailingCycleIsBounded :
    let s := { ceiling 1 (session .sampling 0 11 0 [.timeoutError, .bytes f2c]) with
      pending := [18, 19].map tickRequest ++ [tickRequest 20] }
    s.st = .sampling ∧ s.retry = 0 ∧ s.pending = [18, 19].map tickRequest ++ [tickRequest 20] ∧
    ([18, 19] : List Time).length = s.cfg.retryMax.toNat + 1 ∧
    ∀ k ≤ s.cfg.retryMax.toNat, attemptError (s.rxAnswer (s.rxCalls + k)) ≠ none := by
  refine ⟨rfl, rfl, rfl, rfl, ?_⟩
  intro k hk
  replace hk : k ≤ 1 := hk
  interval_cases k <;> decide

theorem witness_ResetEffect :
    (port true 2).rst = true ∧
    ((session .dormant 0 31 0 []).DeadEnd ∧
      exec (.tick 1000) (session .dormant 0 31 0 []) = .next (after (.tick 1000) (session .dormant 0 31 0 [])) ∧
      ∀ now0, Instr.tick 1000 ≠ .reset now0) ∧
    (session .dormant 0 31 0 []).cfg.mode = .passive ∧ (activeMode (session .dormant 0 31 0 [])).cfg.mode = .active :=
  ⟨rfl, ⟨⟨by decide, by decide⟩, rfl, fun _ h => Instr.noConfusion h⟩, rfl, rfl⟩

/-- The reset state with commands to send at reset. -/
def withInit (cs : List Command) : State := { State.reset with cfg := { Config.default with initSeqPassive := cs } }

theorem witness_ResetDropsBuffers :
    (exec (.reset 100) State.reset = .next (after (.reset 100) State.reset) ∧ State.reset.cfg.initSeq = []) ∧
    (exec (.reset 100) (withInit [.wakeUp, .sleep]) = .next (after (.reset 100) (withInit [.wakeUp, .sleep])) ∧
      (withInit [.wakeUp, .sleep]).cfg.initSeq.getLast? = some .sleep) :=
  ⟨⟨rfl, rfl⟩, rfl, rfl⟩

theorem witness_InvariantsHoldAtReset :
    exec (.reset 100) (withInit [.wakeUp, .sleep]) = .next (after (.reset 100) (withInit [.wakeUp, .sleep])) := rfl

theorem witness_ResetIgnoresTheAnswers :
    exec (.reset 100) (withInit [.wakeUp, .sleep]) = .next (after (.reset 100) (withInit [.wakeUp, .sleep])) := rfl

/-- A session in Sampling with a TICK presented. -/
def samplingWithTick : State := { session .sampling 100 131 0 [.bytes f2] with pending := [tickRequest 153] }

theorem witness_StepKeepsCycleInvariant :
    samplingWithTick.CycleInv ∧ step samplingWithTick = .next (stepped samplingWithTick) :=
  ⟨cycleInv_of (by decide) (by decide) (by decide), rfl⟩

theorem witness_TimestampsNeverExceedLatestTime :
    samplingWithTick.TimesUpTo 152 ∧
    exec (.tick 153) samplingWithTick = .next (after (.tick 153) samplingWithTick) ∧
    (Instr.tick 153 = .tick 153 ∨ Instr.tick 153 = .reset 153) ∧ (152 : Time).toNat ≤ (153 : Time).toNat ∧
    exec .nop samplingWithTick = .next (after .nop samplingWithTick) ∧
    ∀ n, Instr.nop ≠ .tick n ∧ Instr.nop ≠ .reset n :=
  ⟨⟨by decide, by decide⟩, rfl, .inl rfl, by decide, rfl,
    fun _ => ⟨fun h => Instr.noConfusion h, fun h => Instr.noConfusion h⟩⟩

/-- The same session with its buffers filled by what was received and sent before. -/
def samplingWithBuffers : State :=
  { samplingWithTick with fb := Memory.fill f2c.val, txb := Memory.fill (commandFrame OpcodeRom.default .readPassiveRequest) }

theorem witness_StepKeepsBuffers :
    samplingWithBuffers.BufferInv ∧ step samplingWithBuffers = .next (stepped samplingWithBuffers) :=
  ⟨⟨by decide, by decide, by decide, by decide⟩, rfl⟩

theorem witness_StepKeepsConfiguration : step samplingWithTick = .next (stepped samplingWithTick) := rfl

theorem witness_HistoryOnlyGrows : step samplingWithBuffers = .next (stepped samplingWithBuffers) := rfl

/-- A session after its first sample: what it has received, recorded and sent. -/
def afterSample : State :=
  { session .dormant 153 131 0 [] with
    history := [.rx 32 0 (.bytes f2), .record (decodeReading 153 f2.val) "", .tx (commandFrame OpcodeRom.default .sleep)]
    pending := [tickRequest 184] }

theorem witness_StepSendsCommandsOnly :
    afterSample.SendsCommandsOnly ∧ step afterSample = .next (stepped afterSample) := by
  refine ⟨?_, rfl⟩
  intro b hb
  simp only [afterSample, List.mem_cons, List.not_mem_nil, or_false, reduceCtorEq, false_or, Event.tx.injEq] at hb
  exact ⟨.sleep, hb⟩

theorem witness_StepRecordsReceivedFramesOnly :
    afterSample.RecordsAreReceivedFrames ∧ step afterSample = .next (stepped afterSample) := by
  refine ⟨?_, rfl⟩
  intro pre r l post h
  simp only [afterSample] at h
  rcases pre with _ | ⟨e0, _ | ⟨e1, _ | ⟨e2, _ | ⟨e3, pre⟩⟩⟩⟩ <;>
    simp only [List.nil_append, List.cons_append, List.cons.injEq, reduceCtorEq, false_and, and_false, List.nil_eq] at h
  obtain ⟨rfl, he, rfl⟩ := h
  injection he with hr hl
  subst hr hl
  exact ⟨rfl, ⟨[], f2, rfl, by decide⟩, [], rfl⟩

/-- A session in Sampling after one failed attempt, with its history. -/
def samplingAfterFailure : State :=
  { session .sampling 100 131 1 [.bytes f2c] with
    history := txEvents OpcodeRom.default [.wakeUp, .passiveMode, .readPassiveRequest] ++
      [.rx 32 0 (.bytes f2c), .flush]
    pending := [tickRequest 154] }

theorem witness_StepKeepsCycleOrder :
    samplingAfterFailure.CycleHistory ∧ step samplingAfterFailure = .next (stepped samplingAfterFailure) := by
  refine ⟨⟨[], [[.rx 32 0 (.bytes f2c), .flush]], rfl, rfl, ?_⟩, rfl⟩
  intro g hg
  simp only [List.mem_cons, List.not_mem_nil, or_false] at hg
  exact ⟨.bytes f2c, .checksumMismatch, by decide, hg⟩

end Sys2Proof.Tests
end

section
/-! PROOFS. The data arithmetic of the wire: bytes and big-endian pairs as numbers, the checksum as a sum, the two
parts of a command frame (R9, R71, R73). -/

namespace Sys2Proof

theorem byteAt_of_getElem? {b : List Byte} {i : Nat} {v : Byte} (h : b[i]? = some v) : byteAt b i = v := by
  simp [byteAt, h]

/-- R53: the high byte weighs 256. -/
@[simp] theorem be16_toNat (h l : Byte) : (be16 h l).toNat = 256 * h.toNat + l.toNat := by
  have low_fits : l.toNat < 2 ^ 8 := l.isLt
  rw [be16, BitVec.toNat_append, ← Nat.shiftLeft_add_eq_or_of_lt low_fits, Nat.shiftLeft_eq]
  omega

@[simp] theorem memRead2_toNat (b : List Byte) (i : Nat) :
    (memRead2 b i).toNat = 256 * (byteAt b i).toNat + (byteAt b (i + 1)).toNat :=
  be16_toNat _ _

@[simp] theorem cksum16_nil : cksum16 [] = 0 := rfl

/-- The accumulator takes the bytes in arrival order, the last one last. -/
@[simp] theorem cksum16_concat (p : List Byte) (x : Byte) : cksum16 (p ++ [x]) = cksum16 p + x.setWidth 16 := by
  simp [cksum16]

/-- R73: the natural wrap of the 16-bit accumulator is the reduction mod 65536. -/
theorem cksum16_toNat (p : List Byte) : (cksum16 p).toNat = (p.map BitVec.toNat).sum % 65536 := by
  induction p using List.reverseRecOn with
  | nil => rfl
  | append_singleton p x ih =>
    calc (cksum16 (p ++ [x])).toNat
        = ((cksum16 p).toNat + x.toNat % 2 ^ 16) % 2 ^ 16 := by
          rw [cksum16_concat, BitVec.toNat_add, BitVec.toNat_setWidth]
      _ = ((p.map BitVec.toNat).sum + x.toNat) % 65536 := by rw [ih]; omega
      _ = ((p ++ [x]).map BitVec.toNat).sum % 65536 := by simp

/-- A byte is at most 255, so `n` bytes sum to at most `255 n`. -/
theorem byteSum_le (p : List Byte) : (p.map BitVec.toNat).sum ≤ p.length * 255 := by
  have byte_le : ∀ n ∈ p.map BitVec.toNat, n ≤ 255 := by
    simp only [List.mem_map]
    rintro _ ⟨x, -, rfl⟩
    exact Nat.le_pred_of_lt x.isLt
  simpa using List.sum_le_card_nsmul _ _ byte_le

@[simp] theorem commandHead_length (rom : OpcodeRom) (c : Command) : (commandHead rom c).length = 5 := rfl

@[simp] theorem commandFrame_take_five (rom : OpcodeRom) (c : Command) :
    (commandFrame rom c).take 5 = commandHead rom c :=
  List.take_left' (commandHead_length rom c)

@[simp] theorem commandFrame_drop_five (rom : OpcodeRom) (c : Command) :
    (commandFrame rom c).drop 5 = [hi8 (cksum16 (commandHead rom c)), lo8 (cksum16 (commandHead rom c))] :=
  List.drop_left' (commandHead_length rom c)

end Sys2Proof
end

section
/-! PROOFS. The checks of the frame codec, in their order (R120, R123). -/

namespace Sys2Proof.Machine

open Sys2Proof

/-- Past the length and sync checks only the checksum decides. -/
theorem parseFrame_of_sync {b : List Byte} (now : Time) (hlen : b.length = 32) (h0 : byteAt b 0 = sync0)
    (h1 : byteAt b 1 = sync1) :
    parseFrame now b =
      if cksum16 (b.take 30) ≠ memRead2 b 30 then .error .checksumMismatch else .ok (decodeReading now b) := by
  simp [parseFrame, hlen, h0, h1]

theorem parseFrame_eq_checksumMismatch_iff {b : List Byte} (now : Time) (hlen : b.length = 32)
    (h0 : byteAt b 0 = sync0) (h1 : byteAt b 1 = sync1) :
    parseFrame now b = .error .checksumMismatch ↔
      (cksum16 (b.take 30)).toNat ≠ 256 * (byteAt b 30).toNat + (byteAt b 31).toNat := by
  have as_numbers : cksum16 (b.take 30) ≠ memRead2 b 30 ↔
      (cksum16 (b.take 30)).toNat ≠ 256 * (byteAt b 30).toNat + (byteAt b 31).toNat := by
    rw [← memRead2_toNat b 30, ne_eq, ne_eq, BitVec.toNat_inj]
  rw [parseFrame_of_sync now hlen h0 h1, ← as_numbers]
  split
  next differ => simpa using differ
  next agree => simpa using agree

end Sys2Proof.Machine
end

section
/-! PROOFS. The decoder on the host's ports: the reset input, then one equation per operation code (R76). -/

namespace Sys2Proof

variable {p : HostPort}

theorem decodeHost_of_rst (hr : p.rst = true) : decodeHost p = .reset p.now := by
  simp [decodeHost, hr]

theorem decodeHost_of_op_zero (hr : p.rst = false) (ho : p.op = 0) : decodeHost p = .nop := by
  simp [decodeHost, hr, ho]

theorem decodeHost_of_op_one (hr : p.rst = false) (ho : p.op = 1) : decodeHost p = .tick p.now := by
  simp [decodeHost, hr, ho]

theorem decodeHost_of_op_two (hr : p.rst = false) (ho : p.op = 2) : decodeHost p = .parse p.now p.bytes := by
  simp [decodeHost, hr, ho]

theorem decodeHost_of_op_three (hr : p.rst = false) (ho : p.op = 3) : decodeHost p = .encode p.cmd := by
  simp [decodeHost, hr, ho]

@[simp] theorem decode_host (rom : OpcodeRom) (p : HostPort) : decode rom (.host p) = .ok (decodeHost p) := rfl

end Sys2Proof
end

section
/-! PROOFS. The statements of 30_encoding.md. -/

namespace Sys2Proof.Proofs

open Sys2Proof Sys2Proof.Machine

/-- Settles O12: the checksum by induction on the bytes in arrival order, the stored checksums by the two parts of a
command frame and the last check of the codec, the bounds because a byte is at most 255. -/
theorem checksumIsSumModulo65536 : Obligations.ChecksumIsSumModulo65536 := by
  refine ⟨cksum16_toNat, fun rom c => ?_, fun now b hlen h0 h1 => ?_, fun p => ⟨fun h => ?_, fun h => ?_⟩⟩
  · rw [commandFrame_drop_five, commandFrame_take_five]
  · exact parseFrame_eq_checksumMismatch_iff now hlen (byteAt_of_getElem? h0) (byteAt_of_getElem? h1)
  · simpa [h] using byteSum_le p
  · simpa [h] using byteSum_le p

/-- Settles O3: one equation of the decoder for the reset input and one for each operation code. -/
theorem hostPortSelectsOperation : Obligations.HostPortSelectsOperation := by
  intro rom p
  simp only [decode_host, Except.ok.injEq]
  exact ⟨decodeHost_of_rst, decodeHost_of_op_zero, decodeHost_of_op_one, decodeHost_of_op_two,
    decodeHost_of_op_three⟩

end Sys2Proof.Proofs
end

section
/-! PROOFS. The command frame as numbers: the two bytes of a 16-bit quantity, the checksum of a short sequence, which
does not wrap, and the entry of the ROM read back from the frame (R9, R71, R73, R101). -/

namespace Sys2Proof

@[simp] theorem hi8_toNat (v : Word16) : (hi8 v).toNat = v.toNat / 256 := by
  have fits : v.toNat < 2 ^ 16 := v.isLt
  rw [hi8, BitVec.extractLsb'_toNat, Nat.shiftRight_eq_div_pow]
  omega

@[simp] theorem lo8_toNat (v : Word16) : (lo8 v).toNat = v.toNat % 256 := by
  simp [lo8]

/-- 257 bytes sum to at most 65535, which the 16-bit accumulator holds. -/
theorem cksum16_toNat_of_length_le {p : List Byte} (h : p.length ≤ 257) :
    (cksum16 p).toNat = (p.map BitVec.toNat).sum := by
  have sum_le := byteSum_le p
  rw [cksum16_toNat, Nat.mod_eq_of_lt (by omega)]

/-- R101: 42 4D sums to 0x8F, and five bytes are too few for the sum to wrap. -/
theorem cksum16_commandHead_toNat (rom : OpcodeRom) (c : Command) :
    (cksum16 (commandHead rom c)).toNat =
      0x8F + (rom.entry c).b0.toNat + (rom.entry c).b1.toNat + (rom.entry c).b2.toNat := by
  rw [cksum16_toNat_of_length_le (by simp)]
  have sync_sum : sync0.toNat + sync1.toNat = 0x8F := rfl
  simp only [commandHead, List.map_cons, List.map_nil, List.sum_cons, List.sum_nil]
  omega

@[simp] theorem byteAt_commandFrame_five (rom : OpcodeRom) (c : Command) :
    byteAt (commandFrame rom c) 5 = hi8 (cksum16 (commandHead rom c)) := rfl

@[simp] theorem byteAt_commandFrame_six (rom : OpcodeRom) (c : Command) :
    byteAt (commandFrame rom c) 6 = lo8 (cksum16 (commandHead rom c)) := rfl

/-- R108: the last two bytes, read big-endian, are the checksum. -/
theorem commandFrame_checksum_be (rom : OpcodeRom) (c : Command) :
    256 * (byteAt (commandFrame rom c) 5).toNat + (byteAt (commandFrame rom c) 6).toNat =
      (cksum16 (commandHead rom c)).toNat := by
  rw [byteAt_commandFrame_five, byteAt_commandFrame_six, hi8_toNat, lo8_toNat, Nat.div_add_mod]

theorem entry_eq_of_commandHead_eq {rom : OpcodeRom} {c d : Command} (h : commandHead rom c = commandHead rom d) :
    rom.entry c = rom.entry d := by
  simpa only [commandHead, List.cons.injEq, true_and, and_true, ← OpEntry.mk.injEq] using h

/-- R108: the opcode bytes stand in the frame, so a frame belongs to one entry only. -/
theorem entry_eq_of_commandFrame_eq {rom : OpcodeRom} {c d : Command} (h : commandFrame rom c = commandFrame rom d) :
    rom.entry c = rom.entry d := by
  apply entry_eq_of_commandHead_eq
  rw [← commandFrame_take_five rom c, ← commandFrame_take_five rom d, h]

end Sys2Proof
end

section
/-! PROOFS. The command codes and ENCODE (R77, R100, R107). -/

namespace Sys2Proof

theorem Command.ofCode_code (c : Command) : Command.ofCode c.code = some c := by
  cases c <;> rfl

/-- R77: a command's code is its place in the source's order. -/
theorem Command.ofNat_eq_code_of_getElem? {n : Nat} {c : Command} (h : Command.all[n]? = some c) :
    BitVec.ofNat 3 n = c.code := by
  obtain ⟨n_lt, rfl⟩ := List.getElem?_eq_some_iff.mp h
  have every_place : ∀ k : Fin 5, BitVec.ofNat 3 k = (Command.all[k]).code := by decide
  exact every_place ⟨n, n_lt⟩

theorem Command.code_lt_five (c : Command) : c.code.toNat < 5 := by
  cases c <;> decide

/-- R77: codes 5, 6 and 7 are no command's. -/
theorem Command.ofCode_eq_none {cmd : BitVec 3} (h : 5 ≤ cmd.toNat) : Command.ofCode cmd = none := by
  refine List.find?_eq_none.mpr fun c _ same => ?_
  have code_eq : c.code = cmd := eq_of_beq same
  have code_lt := c.code_lt_five
  rw [code_eq] at code_lt
  omega

end Sys2Proof

namespace Sys2Proof.Machine

open Sys2Proof

theorem exec_encode_of_command {cmd : BitVec 3} {c : Command} (h : Command.ofCode cmd = some c) (s : State) :
    exec (.encode cmd) s = .next (s.buildCommand c) := by
  simp only [exec, execEncode, h]

theorem exec_encode_of_no_command {cmd : BitVec 3} (h : Command.ofCode cmd = none) (s : State) :
    exec (.encode cmd) s = .next (s.raise .invalidModeError) := by
  simp only [exec, execEncode, h]

end Sys2Proof.Machine
end

section
/-! PROOFS. The errors a TICK can report: only those of the attempt it makes in Sampling, and no attempt ends in
InvalidModeError (R107, R120, R167, R169). -/

namespace Sys2Proof.Machine

open Sys2Proof

/-- R120: a parse fails in one of its three checks. -/
theorem parseFrame_error_cases {now : Time} {b : List Byte} {e : Err} (h : parseFrame now b = .error e) :
    e = .frameTooShort ∨ e = .badSync ∨ e = .checksumMismatch := by
  unfold parseFrame at h
  split at h
  next => exact .inl (Except.error.inj h).symm
  next =>
    split at h
    next => exact .inr (.inl (Except.error.inj h).symm)
    next =>
      split at h
      next => exact .inr (.inr (Except.error.inj h).symm)
      next => cases h

/-- R167: an attempt fails with an error of the parse or of the transport. -/
theorem attemptOutcome_ne_invalidModeError (now : Time) (a : RxAnswer) (s : State) :
    attemptOutcome now a s ≠ .error .invalidModeError := by
  cases a with
  | timeoutError => simp [attemptOutcome]
  | ioError => simp [attemptOutcome]
  | bytes b =>
    intro h
    obtain h | h | h := parseFrame_error_cases h <;> cases h

@[simp] theorem startCycle_result (now : Time) (s : State) :
    (startCycle now s).result = .tick .started none (s.outFailed s.cfg.wakeSeq.length) none := by
  rw [startCycle_eq]

theorem enterSampling_result (s : State) : ∃ io, (enterSampling s).result = .tick .warmed none io none :=
  ⟨_, rfl⟩

@[simp] theorem sampleDone_result (now : Time) (r : Reading) (s : State) :
    (sampleDone now r s).result = .tick .reading none (s.outFailed 2) (some r) := by
  rw [sampleDone_eq]

/-- R169: a failed attempt reports its own error, whether retries are left or not. -/
theorem attemptFailed_result (e : Err) (s : State) :
    ∃ res io, (attemptFailed e s).result = .tick res (some e) io none := by
  cases h : retriesLeft s with
  | true => exact ⟨_, _, by rw [attemptFailed_retry h]⟩
  | false => exact ⟨_, _, by rw [attemptFailed_exhausted h]⟩

/-- R167, R178: the error a TICK in Sampling reports is that of its attempt. -/
theorem tickSampling_error {now : Time} {s : State} {res : Res} {e : Err} {io : Bool} {rd : Option Reading}
    (h : (tickSampling now s).result = .tick res (some e) io rd) :
    attemptOutcome now s.recv.1 s.recv.2 = .error e := by
  unfold tickSampling at h
  cases outcome : attemptOutcome now s.recv.1 s.recv.2 with
  | ok r => simp [outcome] at h
  | error e' =>
    obtain ⟨res', io', result_eq⟩ := attemptFailed_result e' s.recv.2
    simp only [outcome, result_eq, Result.tick.injEq, Option.some.injEq] at h
    obtain ⟨-, rfl, -, -⟩ := h
    rfl

/-- R178: a TICK reports an error in Sampling only, and then that of its attempt. -/
theorem execTick_error {now : Time} {s t : State} {res : Res} {e : Err} {io : Bool} {rd : Option Reading}
    (hexec : execTick now s = .next t) (hres : t.result = .tick res (some e) io rd) :
    s.st = .sampling ∧ attemptOutcome now s.recv.1 s.recv.2 = .error e := by
  cases hst : s.st with
  | dormant =>
    rw [execTick_dormant hst, Host.Outcome.next.injEq] at hexec
    subst hexec
    split at hres <;> simp at hres
  | warmingUp =>
    rw [execTick_warmingUp hst, Host.Outcome.next.injEq] at hexec
    subst hexec
    obtain ⟨io', warmed⟩ := enterSampling_result s
    split at hres <;> simp [warmed] at hres
  | sampling =>
    rw [execTick_sampling hst, Host.Outcome.next.injEq] at hexec
    subst hexec
    exact ⟨rfl, tickSampling_error hres⟩

end Sys2Proof.Machine
end

section
/-! PROOFS. The statements of 40_command_encoder.md. -/

namespace Sys2Proof.Proofs

open Sys2Proof Sys2Proof.Machine

/-- Settles O14: a code at a place of the source's order selects the command there, codes from 5 select none, and the
error of a TICK is that of an attempt, which is never InvalidModeError. -/
theorem encodeByCode : Obligations.EncodeByCode := by
  refine ⟨fun s n c hn => ⟨s.buildCommand c, ?_, ?_⟩, fun s cmd hcmd => ?_, fun s t now hexec res io rd hres => ?_⟩
  · rw [Command.ofNat_eq_code_of_getElem? hn, exec_encode_of_command c.ofCode_code]
  · rw [State.buildCommand_eq]
  · exact exec_encode_of_no_command (Command.ofCode_eq_none hcmd) s
  · obtain ⟨-, outcome⟩ := execTick_error hexec hres
    exact attemptOutcome_ne_invalidModeError now _ _ outcome

/-- Settles O15: the frame by its head of five bytes and the two bytes of the checksum, which does not wrap. -/
theorem commandFrameLaws : Obligations.CommandFrameLaws := by
  intro rom c
  refine ⟨commandFrame_length rom c, commandFrame_take_five rom c, ?_, fun d differ same => ?_⟩
  · rw [commandFrame_checksum_be, commandFrame_take_five, cksum16_toNat_of_length_le (by simp)]
  · exact differ (entry_eq_of_commandFrame_eq same)

/-- Settles O16: the checksum as a sum of numbers, each opcode byte at most 255. -/
theorem commandChecksumRange : Obligations.CommandChecksumRange := by
  intro rom c
  have sum_eq := cksum16_commandHead_toNat rom c
  have b0_lt : (rom.entry c).b0.toNat < 2 ^ 8 := (rom.entry c).b0.isLt
  have b1_lt : (rom.entry c).b1.toNat < 2 ^ 8 := (rom.entry c).b1.isLt
  have b2_lt : (rom.entry c).b2.toNat < 2 ^ 8 := (rom.entry c).b2.isLt
  rw [byteAt_commandFrame_five, hi8_toNat]
  refine ⟨sum_eq, ?_, ?_, ?_⟩ <;> omega

end Sys2Proof.Proofs
end

section
/-! PROOFS. The frame codec on each outcome of its checks, PARSE and DATA as uses of it, and which instructions return
an error of their own (R120 to R123, R209). -/

namespace Sys2Proof

/-- Within the sequence `b[i]` is the byte there, not the 0 past the end. -/
theorem getElem?_eq_some_iff_byteAt {b : List Byte} {i : Nat} {v : Byte} (h : i < b.length) :
    b[i]? = some v ↔ byteAt b i = v := by
  simp [byteAt, h]

end Sys2Proof

namespace Sys2Proof.Machine

open Sys2Proof

/-- R121: the length check is the first, and no later check fails with its error. -/
theorem parseFrame_eq_frameTooShort_iff (now : Time) (b : List Byte) :
    parseFrame now b = .error .frameTooShort ↔ b.length ≠ 32 := by
  unfold parseFrame
  split
  next wrong_length => simpa using wrong_length
  next right_length =>
    refine iff_of_false ?_ right_length
    split
    next => simp
    next => split <;> simp

/-- R122: after the length only the two sync bytes are looked at. -/
theorem parseFrame_of_not_sync {b : List Byte} (now : Time) (hlen : b.length = 32)
    (hsync : ¬(byteAt b 0 = sync0 ∧ byteAt b 1 = sync1)) : parseFrame now b = .error .badSync := by
  unfold parseFrame
  rw [if_neg (not_not_intro hlen), if_pos (not_and_or.mp hsync)]

/-- R123: a frame whose sum agrees passes the last check. -/
theorem parseFrame_of_checksum {b : List Byte} (now : Time) (hlen : b.length = 32) (h0 : byteAt b 0 = sync0)
    (h1 : byteAt b 1 = sync1)
    (hsum : (cksum16 (b.take 30)).toNat = 256 * (byteAt b 30).toNat + (byteAt b 31).toNat) :
    parseFrame now b = .ok (decodeReading now b) := by
  have agree : cksum16 (b.take 30) = memRead2 b 30 := BitVec.eq_of_toNat_eq (by rw [hsum, memRead2_toNat])
  rw [parseFrame_of_sync now hlen h0 h1, if_neg (not_not_intro agree)]

theorem parseBytes_of_error {now : Time} {b : List Byte} {e : Err} (h : parseFrame now b = .error e) (s : State) :
    parseBytes now b s =
      { s with fb := if b.length = 32 then Memory.fill b else s.fb, result := .error e } := by
  rw [parseBytes_eq, h]

theorem parseBytes_of_ok {now : Time} {b : List Byte} {r : Reading} (h : parseFrame now b = .ok r) (s : State) :
    parseBytes now b s =
      { s with fb := if b.length = 32 then Memory.fill b else s.fb, result := .parsed r } := by
  rw [parseBytes_eq, h]

/-- R209: the error the codec returns is that of the parse. -/
theorem parseFrame_error_of_parseBytes_result {now : Time} {b : List Byte} {s : State} {e : Err}
    (h : (parseBytes now b s).result = .error e) : parseFrame now b = .error e := by
  cases parsed : parseFrame now b with
  | ok r => simp [parseBytes_of_ok parsed] at h
  | error e' => simpa [parseBytes_of_error parsed] using h

theorem exec_parse (now : Time) (b : List Byte) (s : State) :
    exec (.parse now b) s = .next (parseBytes now b s) := rfl

theorem exec_data (now : Time) (body : List Byte) (s : State) :
    exec (.data now body) s = .next (parseBytes now (sync0 :: sync1 :: body) s) := rfl

/-- R174: a receive leaves the 32 bytes of its answer in the frame buffer. -/
theorem State.recv_fb_bytes {s : State} {b : Frame32} (h : s.recv.1 = .bytes b) : s.recv.2.fb.bytes = b.val := by
  rw [State.recv_eq] at h ⊢
  replace h : s.rxAnswer s.rxCalls = .bytes b := h
  simp [h, fbAfter]

/-- R174: an attempt parses 32 bytes or none, so its length check cannot fail. -/
theorem attemptOutcome_recv_ne_frameTooShort (now : Time) (s : State) :
    attemptOutcome now s.recv.1 s.recv.2 ≠ .error .frameTooShort := by
  cases answer : s.recv.1 with
  | timeoutError => simp [attemptOutcome]
  | ioError => simp [attemptOutcome]
  | bytes b =>
    simp only [attemptOutcome, State.recv_fb_bytes answer]
    exact fun h => (parseFrame_eq_frameTooShort_iff now b.val).mp h b.property

/-- R178: whatever it does, a TICK returns `res` and what goes with it. -/
theorem execTick_result {now : Time} {s t : State} (h : execTick now s = .next t) :
    ∃ res err io rd, t.result = .tick res err io rd := by
  cases hst : s.st with
  | dormant =>
    rw [execTick_dormant hst, Host.Outcome.next.injEq] at h
    subst h
    split
    next => exact ⟨_, _, _, _, startCycle_result now s⟩
    next => exact ⟨_, _, _, _, s.idle_result⟩
  | warmingUp =>
    rw [execTick_warmingUp hst, Host.Outcome.next.injEq] at h
    subst h
    split
    next =>
      obtain ⟨io, warmed⟩ := enterSampling_result s
      exact ⟨_, _, _, _, warmed⟩
    next => exact ⟨_, _, _, _, s.idle_result⟩
  | sampling =>
    rw [execTick_sampling hst, Host.Outcome.next.injEq] at h
    subst h
    unfold tickSampling
    cases attemptOutcome now s.recv.1 s.recv.2 with
    | ok r => exact ⟨_, _, _, _, sampleDone_result now r s.recv.2⟩
    | error e =>
      obtain ⟨res, io, failed⟩ := attemptFailed_result e s.recv.2
      exact ⟨_, _, _, _, failed⟩

theorem exec_ofCommand (c : Command) (s : State) : exec (.ofCommand c) s = .next (s.buildCommand c) := by
  cases c <;> rfl

/-- R102 to R106: a command row returns its frame. -/
theorem exec_ofCommand_result_ne_error {c : Command} {s t : State} (h : exec (.ofCommand c) s = .next t) (e : Err) :
    t.result ≠ .error e := by
  rw [exec_ofCommand, Host.Outcome.next.injEq] at h
  subst h
  simp [State.buildCommand_eq]

/-- R107: ENCODE has one error. -/
theorem exec_encode_error {cmd : BitVec 3} {s t : State} {e : Err} (hexec : exec (.encode cmd) s = .next t)
    (hres : t.result = .error e) : e = .invalidModeError := by
  cases selected : Command.ofCode cmd with
  | some c =>
    rw [exec_encode_of_command selected, Host.Outcome.next.injEq] at hexec
    subst hexec
    simp [State.buildCommand_eq] at hres
  | none =>
    rw [exec_encode_of_no_command selected, Host.Outcome.next.injEq] at hexec
    subst hexec
    simpa using hres.symm

/-- R200, R209: an instruction that returns an error is a parse that failed, of PARSE's bytes or of a frame, or an
ENCODE. -/
theorem exec_error_cases {i : Instr} {s t : State} {e : Err} (hexec : exec i s = .next t)
    (hres : t.result = .error e) :
    (∃ now b, i = .parse now b ∧ parseFrame now b = .error e) ∨
    (∃ now body, i = .data now body ∧ parseFrame now (sync0 :: sync1 :: body) = .error e) ∨
    (∃ cmd, i = .encode cmd ∧ e = .invalidModeError) := by
  cases i with
  | sleep => exact absurd hres (exec_ofCommand_result_ne_error (c := .sleep) hexec e)
  | wakeUp => exact absurd hres (exec_ofCommand_result_ne_error (c := .wakeUp) hexec e)
  | active => exact absurd hres (exec_ofCommand_result_ne_error (c := .activeMode) hexec e)
  | passive => exact absurd hres (exec_ofCommand_result_ne_error (c := .passiveMode) hexec e)
  | read => exact absurd hres (exec_ofCommand_result_ne_error (c := .readPassiveRequest) hexec e)
  | data now body =>
    rw [exec_data, Host.Outcome.next.injEq] at hexec
    subst hexec
    exact .inr (.inl ⟨now, body, rfl, parseFrame_error_of_parseBytes_result hres⟩)
  | nop =>
    obtain rfl : s.deliver .none = t := Host.Outcome.next.inj hexec
    simp at hres
  | tick now =>
    obtain ⟨_, _, _, _, ticked⟩ := execTick_result hexec
    simp [ticked] at hres
  | parse now b =>
    rw [exec_parse, Host.Outcome.next.injEq] at hexec
    subst hexec
    exact .inl ⟨now, b, rfl, parseFrame_error_of_parseBytes_result hres⟩
  | encode cmd => exact .inr (.inr ⟨cmd, rfl, exec_encode_error hexec hres⟩)
  | reset now0 =>
    obtain rfl := Host.Outcome.next.inj ((execReset_eq now0 s).symm.trans hexec)
    simp at hres

end Sys2Proof.Machine
end

section
/-! PROOFS. The statements of 41_frame_codec.md. -/

namespace Sys2Proof.Proofs

open Sys2Proof Sys2Proof.Machine

/-- Settles O18: a parse fails in its length check exactly where there are not 32 bytes; a TICK reports the error of
its attempt, which parses 32 bytes or none; of the instructions that return an error, a well-formed DATA hands 32 bytes
to the codec and ENCODE has another error. -/
theorem parseChecksLength : Obligations.ParseChecksLength := by
  refine ⟨fun s now b hlen => ?_, fun s t now hexec res io rd hres => ?_, fun i s t hwf hexec hres => ?_⟩
  · have too_short := (parseFrame_eq_frameTooShort_iff now b).mpr hlen
    rw [exec_parse, parseBytes_of_error too_short, if_neg hlen]
  · obtain ⟨-, outcome⟩ := execTick_error hexec hres
    exact attemptOutcome_recv_ne_frameTooShort now s outcome
  · obtain ⟨now, b, rfl, -⟩ | ⟨now, body, rfl, too_short⟩ | ⟨cmd, rfl, other_error⟩ :=
      exec_error_cases hexec hres
    · exact ⟨now, b, rfl⟩
    · have frame_length : (sync0 :: sync1 :: body).length = 32 := by simpa [Instr.WellFormed] using hwf
      exact absurd frame_length ((parseFrame_eq_frameTooShort_iff now _).mp too_short)
    · cases other_error

/-- Settles O19: past the length check the two sync bytes alone decide. -/
theorem parseChecksSync : Obligations.ParseChecksSync := by
  intro s now b hlen hsync
  rw [getElem?_eq_some_iff_byteAt (by omega), getElem?_eq_some_iff_byteAt (by omega)] at hsync
  exact ⟨_, exec_parse now b s, by rw [parseBytes_of_error (parseFrame_of_not_sync now hlen hsync)]⟩

/-- Settles O20: past the length and sync checks the sum of thirty bytes, each at most 255, alone decides. -/
theorem parseChecksChecksum : Obligations.ParseChecksChecksum := by
  intro s now b hlen hb0 hb1
  have h0 : byteAt b 0 = sync0 := byteAt_of_getElem? hb0
  have h1 : byteAt b 1 = sync1 := byteAt_of_getElem? hb1
  rw [← cksum16_toNat]
  refine ⟨?_, fun differ => ?_, fun agree => ?_⟩
  · simpa [hlen] using byteSum_le (b.take 30)
  · have mismatch := (parseFrame_eq_checksumMismatch_iff now hlen h0 h1).mpr differ
    exact ⟨_, exec_parse now b s, by rw [parseBytes_of_error mismatch]⟩
  · have passed := parseFrame_of_checksum now hlen h0 h1 agree
    exact ⟨_, exec_parse now b s, by rw [parseBytes_of_ok passed]⟩

end Sys2Proof.Proofs
end

section
/-! PROOFS. The reading decoder: its fields as pairs of bytes, the signed count, and a parse at another time (R140,
R142, R145). -/

namespace Sys2Proof.Machine

open Sys2Proof

/-- R140: field `k` is the big-endian pair at offset `4 + 2k`. -/
@[simp] theorem frameField_toNat (b : List Byte) (k : Nat) :
    (frameField b k).toNat = 256 * (byteAt b (4 + 2 * k)).toNat + (byteAt b (5 + 2 * k)).toNat := by
  rw [frameField, memRead2_toNat, show 4 + 2 * k + 1 = 5 + 2 * k by omega]

theorem frameField_congr {b b' : List Byte} {k : Nat} (hi : byteAt b (4 + 2 * k) = byteAt b' (4 + 2 * k))
    (lo : byteAt b (5 + 2 * k) = byteAt b' (5 + 2 * k)) : frameField b k = frameField b' k :=
  BitVec.eq_of_toNat_eq (by rw [frameField_toNat, frameField_toNat, hi, lo])

/-- R141: the declared order is the order of the offsets. -/
theorem decodeReading_fields (now : Time) (b : List Byte) :
    (decodeReading now b).fields = (List.range 12).map (frameField b) := rfl

theorem decodeReading_fields_getElem? (now : Time) (b : List Byte) {k : Nat} (h : k < 12) :
    (decodeReading now b).fields[k]? = some (frameField b k) := by
  simp [decodeReading_fields, h]

/-- R142: fields 6 and 9 are two bytes each, so their difference is in range on both sides. -/
theorem countOf_bounds (b : List Byte) : -65535 ≤ countOf b ∧ countOf b ≤ 65535 := by
  have n0_3_lt : (frameField b 6).toNat < 2 ^ 16 := (frameField b 6).isLt
  have n2_5_lt : (frameField b 9).toNat < 2 ^ 16 := (frameField b 9).isLt
  unfold countOf
  omega

/-- R142: 17 bits hold the count, so it does not wrap. -/
@[simp] theorem decodeReading_count_toInt (now : Time) (b : List Byte) :
    (decodeReading now b).count.toInt = countOf b := by
  obtain ⟨lower, upper⟩ := countOf_bounds b
  exact BitVec.toInt_ofInt_eq_self (by decide) (by omega) (by omega)

/-- R145: the count reads the two bytes of field 6 and the two of field 9. -/
theorem countOf_congr {b b' : List Byte} (h16 : byteAt b 16 = byteAt b' 16) (h17 : byteAt b 17 = byteAt b' 17)
    (h22 : byteAt b 22 = byteAt b' 22) (h23 : byteAt b 23 = byteAt b' 23) : countOf b = countOf b' := by
  have n0_3_eq : frameField b 6 = frameField b' 6 := frameField_congr h16 h17
  have n2_5_eq : frameField b 9 = frameField b' 9 := frameField_congr h22 h23
  rw [countOf, countOf, n0_3_eq, n2_5_eq]

theorem decodeReading_count_of_countOf {b b' : List Byte} (h : countOf b = countOf b') (now now' : Time) :
    (decodeReading now b).count = (decodeReading now' b').count :=
  congrArg (BitVec.ofInt 17) h

theorem decodeReading_est10_of_countOf {b b' : List Byte} (h : countOf b = countOf b') (now now' : Time) :
    (decodeReading now b).est10 = (decodeReading now' b').est10 :=
  congrArg (BitVec.ofInt 13 ∘ est10Of) h

/-- R145: the checks do not look at the time, and the Reading only carries it. -/
theorem parseFrame_at_time (now now' : Time) (b : List Byte) :
    parseFrame now' b = (parseFrame now b).map fun r => { r with ts := now' } := by
  unfold parseFrame
  split
  next => rfl
  next =>
    split
    next => rfl
    next => split <;> rfl

end Sys2Proof.Machine
end

section
/-! PROOFS. The rounding of the estimate (R143). A tie at count `c` is a fraction `p / 2c` with `p` odd. The constant of
the integer form and the real constant lie between the neighbouring fractions 5455/92654 and 3704/62913, and no fraction
between these has a denominator below 92654 + 62913. No count reaches that, so no tie separates the two constants and
they round alike. (5455/92654 is the nearest tie, that of R143's count 46327.) -/

namespace Sys2Proof.Machine

open Sys2Proof

/-- A fraction strictly between two neighbours of a Farey sequence has at least the sum of their denominators. -/
theorem add_le_denominator_of_between {a b c d p m : ℤ} (hb : 0 < b) (hd : 0 < d) (neighbours : c * b - a * d = 1)
    (above : a * m < p * b) (below : p * d < c * m) : b + d ≤ m :=
  calc b + d
      ≤ b * (c * m - p * d) + d * (p * b - a * m) :=
        add_le_add (le_mul_of_one_le_right hb.le (by omega)) (le_mul_of_one_le_right hd.le (by omega))
    _ = m * (c * b - a * d) := by ring
    _ = m := by rw [neighbours, mul_one]

/-- A tie `p / 2c` of a count does not lie strictly between the two fractions. -/
theorem half_not_between {c : ℤ} (upper : c ≤ 65535) (p : ℤ) :
    p * 92654 ≤ 5455 * (2 * c) ∨ 3704 * (2 * c) ≤ p * 62913 := by
  by_contra! between
  obtain ⟨above, below⟩ := between
  have denominator := add_le_denominator_of_between (by decide) (by decide) (by decide) above below
  omega

/-- R143: the floor as the pair of bounds that determines it. -/
theorem est10Of_eq_iff {c e : ℤ} :
    est10Of c = e ↔ (2 * e - 1) * 2 ^ 31 ≤ 252866003 * c ∧ 252866003 * c < (2 * e + 1) * 2 ^ 31 := by
  rw [est10Of, Int.fdiv_eq_ediv_of_nonneg _ (by decide)]
  omega

/-- Both fractions round to the estimate. -/
theorem est10Of_bracket {c : ℤ} (pos : 0 < c) (upper : c ≤ 65535) :
    (2 * est10Of c - 1) * 92654 ≤ 5455 * (2 * c) ∧ 3704 * (2 * c) ≤ (2 * est10Of c + 1) * 62913 := by
  obtain ⟨rounded_down, rounded_up⟩ := est10Of_eq_iff.mp (rfl : est10Of c = est10Of c)
  constructor
  · have tie_below := half_not_between upper (2 * est10Of c - 1)
    omega
  · have tie_above := half_not_between upper (2 * est10Of c + 1)
    omega

theorem est10Of_neg_of_pos {c : ℤ} (pos : 0 < c) (upper : c ≤ 65535) : est10Of (-c) = -est10Of c := by
  have bracket := est10Of_bracket pos upper
  rw [est10Of_eq_iff]
  omega

/-- R143: no count is a tie, so a negated count rounds to the negated estimate. -/
theorem est10Of_neg {c : ℤ} (lower : -65535 ≤ c) (upper : c ≤ 65535) : est10Of (-c) = -est10Of c := by
  obtain neg | rfl | pos := lt_trichotomy c 0
  · have mirrored := est10Of_neg_of_pos (c := -c) (by omega) (by omega)
    rw [neg_neg] at mirrored
    omega
  · rfl
  · exact est10Of_neg_of_pos pos upper

/-- R143: the estimate grows with the count, so the ends of the count's range bound it. -/
theorem est10Of_bounds {c : ℤ} (lower : -65535 ≤ c) (upper : c ≤ 65535) :
    -3858 ≤ est10Of c ∧ est10Of c ≤ 3858 := by
  have rounding := est10Of_eq_iff.mp (rfl : est10Of c = est10Of c)
  omega

/-- 13 bits hold the estimate. -/
@[simp] theorem decodeReading_est10_toInt (now : Time) (b : List Byte) :
    (decodeReading now b).est10.toInt = est10Of (countOf b) := by
  obtain ⟨count_lower, count_upper⟩ := countOf_bounds b
  obtain ⟨lower, upper⟩ := est10Of_bounds count_lower count_upper
  exact BitVec.toInt_ofInt_eq_self (by decide) (by omega) (by omega)

theorem est10Of_eq_floor (c : ℤ) : est10Of c = ⌊((252866003 * c + 2 ^ 31 : ℤ) : ℚ) / 2 ^ 32⌋ := by
  rw [est10Of, Int.fdiv_eq_ediv_of_nonneg _ (by decide)]
  have floor_div := Rat.floor_intCast_div_natCast (252866003 * c + 2 ^ 31) (2 ^ 32)
  rw [Nat.cast_pow, Nat.cast_pow] at floor_div
  exact floor_div.symm

section Nearest

variable {x : ℝ} (hlo : 5455 / 92654 < x) (hhi : x < 3704 / 62913)
include hlo hhi

theorem abs_mul_sub_est10Of_lt_of_pos {c : ℤ} (pos : 0 < c) (upper : c ≤ 65535) :
    |x * c - est10Of c| < 1 / 2 := by
  obtain ⟨tie_below, tie_above⟩ := est10Of_bracket pos upper
  have tie_below' : (2 * (est10Of c : ℝ) - 1) * 92654 ≤ 5455 * (2 * c) := by exact_mod_cast tie_below
  have tie_above' : 3704 * (2 * (c : ℝ)) ≤ (2 * est10Of c + 1) * 62913 := by exact_mod_cast tie_above
  have pos' : (0 : ℝ) < c := by exact_mod_cast pos
  have above := mul_lt_mul_of_pos_right hlo pos'
  have below := mul_lt_mul_of_pos_right hhi pos'
  rw [abs_sub_lt_iff]
  constructor <;> linarith

/-- Every real constant between the two fractions has the estimate for its nearest integer, at every count. -/
theorem abs_mul_sub_est10Of_lt {c : ℤ} (lower : -65535 ≤ c) (upper : c ≤ 65535) :
    |x * c - est10Of c| < 1 / 2 := by
  obtain neg | rfl | pos := lt_trichotomy c 0
  · have mirrored := abs_mul_sub_est10Of_lt_of_pos hlo hhi (c := -c) (by omega) (by omega)
    rw [est10Of_neg lower upper] at mirrored
    calc |x * c - est10Of c|
        = |x * ((-c : ℤ) : ℝ) - ((-est10Of c : ℤ) : ℝ)| := by
          rw [← abs_neg]; push_cast; congr 1; ring
      _ < 1 / 2 := mirrored
  · simp [show est10Of 0 = 0 from rfl]
  · exact abs_mul_sub_est10Of_lt_of_pos hlo hhi pos upper

end Nearest

/-- `K` of R143: volume times density of one particle, times the two unit factors. -/
noncomputable def massFactor : ℝ :=
  (4 / 3 : ℝ) * Real.pi * (44 / 100000000 : ℝ) ^ 3 * 1650000000000 * 10 * 1000

theorem massFactor_eq : massFactor = 14641 / 7812500 * Real.pi := by
  unfold massFactor
  ring

theorem lt_ten_mul_massFactor : 5455 / 92654 < 10 * massFactor := by
  have pi_gt := Real.pi_gt_d20
  rw [massFactor_eq]
  linarith

theorem ten_mul_massFactor_lt : 10 * massFactor < 3704 / 62913 := by
  have pi_lt := Real.pi_lt_d20
  rw [massFactor_eq]
  linarith

end Sys2Proof.Machine
end

section
/-! PROOFS. The statements of 42_reading_decoder.md. -/

namespace Sys2Proof.Proofs

open Sys2Proof Sys2Proof.Machine

/-- Settles O23: the real constant and that of the integer form round alike, because no tie of a count lies between
them; the range and the integer form from the floor; oddness because no count is a tie. -/
theorem estimateIsNearestTenth : Obligations.EstimateIsNearestTenth := by
  refine ⟨fun now b => ?_, fun now now' b b' negated => ?_⟩
  · obtain ⟨lower, upper⟩ := countOf_bounds b
    obtain ⟨est_lower, est_upper⟩ := est10Of_bounds lower upper
    rw [decodeReading_count_toInt, decodeReading_est10_toInt]
    exact ⟨abs_mul_sub_est10Of_lt lt_ten_mul_massFactor ten_mul_massFactor_lt lower upper, est_lower, est_upper,
      est10Of_eq_floor _⟩
  · obtain ⟨lower, upper⟩ := countOf_bounds b
    rw [decodeReading_count_toInt, decodeReading_count_toInt] at negated
    rw [decodeReading_est10_toInt, decodeReading_est10_toInt, negated, est10Of_neg lower upper]

/-- Settles O22: field `k` is the pair at offset `4 + 2k`, and 17 bits hold the difference of two fields. -/
theorem readingHoldsTheFields : Obligations.ReadingHoldsTheFields := by
  refine fun now b => ⟨rfl, fun k hk => ?_, ?_, rfl⟩
  · rw [decodeReading_fields_getElem? now b hk, Option.map_some, frameField_toNat]
  · rw [decodeReading_count_toInt, countOf, frameField_toNat, frameField_toNat]

/-- Settles O24: each field by its own two bytes, the count by two fields and the estimate by the count; a parse at
another time is the same parse with the time replaced. -/
theorem readingDependsOnPayloadOnly : Obligations.ReadingDependsOnPayloadOnly := by
  refine fun now now' b b' => ⟨fun payload => ?_, fun h16 h17 h22 h23 => ?_, rfl, fun e failed => ?_,
    fun r parsed => ?_⟩
  · rw [decodeReading_fields, decodeReading_fields]
    refine List.map_congr_left fun k hk => ?_
    have k_lt : k < 12 := List.mem_range.mp hk
    exact frameField_congr (payload _ (by omega) (by omega)) (payload _ (by omega) (by omega))
  · have count_eq := countOf_congr h16 h17 h22 h23
    exact ⟨decodeReading_count_of_countOf count_eq now now', decodeReading_est10_of_countOf count_eq now now'⟩
  · rw [parseFrame_at_time now now' b, failed]
    rfl
  · rw [parseFrame_at_time now now' b, parsed]
    rfl

end Sys2Proof.Proofs
end

section
/-! PROOFS. The guards of the scheduler: the comparator without subtraction, and which edge a TICK in Dormant takes
(R161 to R163). -/

namespace Sys2Proof.Machine

open Sys2Proof

/-- R161, R162: the sum of two times fits in 33 bits, so a timestamp comparator needs no subtraction. -/
theorem elapsed_eq_comparator (now since span other : Time) :
    elapsed now since span other =
      ((since.setWidth 33 + span.setWidth 33).ult (now.setWidth 33) && other.ule since) := by
  have now_lt : now.toNat < 2 ^ 32 := now.isLt
  have since_lt : since.toNat < 2 ^ 32 := since.isLt
  have span_lt : span.toNat < 2 ^ 32 := span.isLt
  rw [Bool.eq_iff_iff, elapsed_iff]
  simp only [Bool.and_eq_true, BitVec.ult, BitVec.ule, decide_eq_true_eq, BitVec.toNat_add, BitVec.toNat_setWidth]
  omega

theorem gStart_iff (s : State) (now : Time) :
    gStart s now = true ↔ (now.toNat : Int) - s.lsa.toNat > s.cfg.si.toNat ∧ s.lsa.toNat ≥ s.lto.toNat := by
  rw [gStart, elapsed_iff, ge_iff_le, Nat.cast_le]

theorem gWarm_iff (s : State) (now : Time) :
    gWarm s now = true ↔ (now.toNat : Int) - s.lto.toNat > s.cfg.wd.toNat ∧ s.lto.toNat ≥ s.lsa.toNat := by
  rw [gWarm, elapsed_iff, ge_iff_le, Nat.cast_le]

/-- Before the first turn-on only the sampling interval holds a cycle back. -/
theorem gStart_iff_of_lto_zero {s : State} (h : s.lto = 0) (now : Time) :
    gStart s now = true ↔ s.lsa.toNat + s.cfg.si.toNat < now.toNat := by
  have lto_eq : s.lto.toNat = 0 := by rw [h]; rfl
  rw [gStart_iff]
  omega

theorem exec_tick_of_gStart {s : State} {now : Time} (hst : s.st = .dormant) (hg : gStart s now = true) :
    exec (.tick now) s = .next (startCycle now s) := by
  rw [exec, execTick_dormant hst, if_pos hg]

theorem exec_tick_of_not_gStart {s : State} {now : Time} (hst : s.st = .dormant) (hg : ¬ gStart s now = true) :
    exec (.tick now) s = .next s.idle := by
  rw [exec, execTick_dormant hst, if_neg hg]

/-- R183: a TICK given at the state RESET leaves starts a cycle once `SI` has passed since the reset value of `LSA`, and
is IDLE before that. -/
theorem exec_tick_after_reset {s t : State} {now0 : Time} (hreset : exec (.reset now0) s = .next t) (now : Time) :
    ((resetLsa s.cfg.mode now0).toNat + s.cfg.si.toNat < now.toNat →
      ∃ u, exec (.tick now) t = .next u ∧ u.st = .warmingUp ∧ u.lto = now) ∧
    (now.toNat ≤ (resetLsa s.cfg.mode now0).toNat + s.cfg.si.toNat →
      exec (.tick now) t = .next { t with result := .tick .idle none false none }) := by
  obtain rfl := Host.Outcome.next.inj ((execReset_eq now0 s).symm.trans hreset)
  refine ⟨fun past => ?_, fun before => ?_⟩
  · exact ⟨_, exec_tick_of_gStart rfl ((gStart_iff_of_lto_zero rfl now).mpr past), rfl, rfl⟩
  · exact exec_tick_of_not_gStart rfl fun hg => before.not_gt ((gStart_iff_of_lto_zero rfl now).mp hg)

end Sys2Proof.Machine
end

section
/-! PROOFS. What the answers of `Send`, `Discard` and `Record` can change in a TICK: each of its parts makes a number of
output calls that does not depend on them, and gathers their answers into `ioerr` (R177). -/

namespace Sys2Proof.Machine

open Sys2Proof

/-- The state before an environment that gives other answers to the output calls to come (log 5). -/
def State.withAnswers (answers : List OutAnswer) (calls : Nat) (s : State) : State :=
  { s with outScript := answers, outCalls := calls }

theorem State.withAnswers_self (s : State) : s.withAnswers s.outScript s.outCalls = s := rfl

/-- From `s`, whatever the output calls answer, `f` makes `n` of them and ends in the same state with the same result,
but for `ioerr`, which tells whether one of the `n` failed. -/
def AnswersReachOnlyIoerr (f : State → State) (s : State) : Prop :=
  ∃ (u : State) (res : Res) (err : Option Err) (rd : Option Reading) (n : Nat), ∀ answers calls,
    f (s.withAnswers answers calls) =
      { u with outScript := answers, outCalls := calls + n,
               result := .tick res err ((s.withAnswers answers calls).outFailed n) rd }

/-- What the output calls answer depends on the script and the count of calls only, so the state `g` starts from may
differ from `s` in everything else. -/
theorem AnswersReachOnlyIoerr.of_eq {f g : State → State} {s s' : State} (h : AnswersReachOnlyIoerr g s')
    (heq : ∀ answers calls, f (s.withAnswers answers calls) = g (s'.withAnswers answers calls)) :
    AnswersReachOnlyIoerr f s := by
  obtain ⟨u, res, err, rd, n, same⟩ := h
  exact ⟨u, res, err, rd, n, fun answers calls => (heq answers calls).trans (same answers calls)⟩

theorem idle_answersReachOnlyIoerr (s : State) : AnswersReachOnlyIoerr State.idle s :=
  ⟨s, .idle, none, none, 0, fun _ _ => rfl⟩

theorem startCycle_answersReachOnlyIoerr (now : Time) (s : State) : AnswersReachOnlyIoerr (startCycle now) s :=
  ⟨startCycle now s, .started, none, none, s.cfg.wakeSeq.length, fun _ _ => by
    rw [startCycle_eq, startCycle_eq]; rfl⟩

theorem enterSampling_answersReachOnlyIoerr (s : State) : AnswersReachOnlyIoerr enterSampling s := by
  cases hmode : s.cfg.mode with
  | passive =>
    exact ⟨enterSampling s, .warmed, none, none, 1, fun answers calls => by
      rw [enterSampling_passive hmode, enterSampling_passive (s := s.withAnswers answers calls) hmode]; rfl⟩
  | active =>
    exact ⟨enterSampling s, .warmed, none, none, 0, fun answers calls => by
      rw [enterSampling_active hmode, enterSampling_active (s := s.withAnswers answers calls) hmode]; rfl⟩

theorem sampleDone_answersReachOnlyIoerr (now : Time) (r : Reading) (s : State) :
    AnswersReachOnlyIoerr (sampleDone now r) s :=
  ⟨sampleDone now r s, .reading, none, some r, 2, fun _ _ => by rw [sampleDone_eq, sampleDone_eq]; rfl⟩

theorem attemptFailed_answersReachOnlyIoerr (e : Err) (s : State) : AnswersReachOnlyIoerr (attemptFailed e) s := by
  cases hretry : retriesLeft s with
  | true =>
    exact ⟨attemptFailed e s, .retrying, some e, none, discards e, fun answers calls => by
      rw [attemptFailed_retry hretry, attemptFailed_retry (s := s.withAnswers answers calls) hretry]; rfl⟩
  | false =>
    exact ⟨attemptFailed e s, .failed, some e, none, discards e, fun answers calls => by
      rw [attemptFailed_exhausted hretry, attemptFailed_exhausted (s := s.withAnswers answers calls) hretry]; rfl⟩

/-- A receive does not look at the output calls. -/
theorem State.recv_withAnswers (answers : List OutAnswer) (calls : Nat) (s : State) :
    (s.withAnswers answers calls).recv = (s.recv.1, s.recv.2.withAnswers answers calls) := by
  rw [State.recv_eq, State.recv_eq]
  rfl

/-- The outcome of an attempt is that of the receive, whatever the output calls answer. -/
theorem attemptOutcome_withAnswers (now : Time) (a : RxAnswer) (answers : List OutAnswer) (calls : Nat) (s : State) :
    attemptOutcome now a (s.withAnswers answers calls) = attemptOutcome now a s := rfl

theorem tickDormant_answersReachOnlyIoerr (now : Time) (s : State) : AnswersReachOnlyIoerr (tickDormant now) s := by
  by_cases hg : gStart s now = true
  · exact (startCycle_answersReachOnlyIoerr now s).of_eq fun _ _ => if_pos hg
  · exact (idle_answersReachOnlyIoerr s).of_eq fun _ _ => if_neg hg

theorem tickWarmingUp_answersReachOnlyIoerr (now : Time) (s : State) : AnswersReachOnlyIoerr (tickWarmingUp now) s := by
  by_cases hg : gWarm s now = true
  · exact (enterSampling_answersReachOnlyIoerr s).of_eq fun _ _ => if_pos hg
  · exact (idle_answersReachOnlyIoerr s).of_eq fun _ _ => if_neg hg

theorem tickSampling_answersReachOnlyIoerr (now : Time) (s : State) : AnswersReachOnlyIoerr (tickSampling now) s := by
  cases outcome : attemptOutcome now s.recv.1 s.recv.2 with
  | ok r =>
    refine (sampleDone_answersReachOnlyIoerr now r s.recv.2).of_eq fun answers calls => ?_
    simp only [tickSampling, State.recv_withAnswers, attemptOutcome_withAnswers, outcome]
  | error e =>
    refine (attemptFailed_answersReachOnlyIoerr e s.recv.2).of_eq fun answers calls => ?_
    simp only [tickSampling, State.recv_withAnswers, attemptOutcome_withAnswers, outcome]

/-- R177: in each state of the scheduler a TICK is an operation whose answers reach `ioerr` alone. -/
theorem exec_tick_answersReachOnlyIoerr (now : Time) (s : State) :
    ∃ f, AnswersReachOnlyIoerr f s ∧
      ∀ answers calls, exec (.tick now) (s.withAnswers answers calls) = .next (f (s.withAnswers answers calls)) := by
  cases hst : s.st with
  | dormant =>
    exact ⟨tickDormant now, tickDormant_answersReachOnlyIoerr now s, fun answers calls =>
      execTick_dormant (s := s.withAnswers answers calls) hst now⟩
  | warmingUp =>
    exact ⟨tickWarmingUp now, tickWarmingUp_answersReachOnlyIoerr now s, fun answers calls =>
      execTick_warmingUp (s := s.withAnswers answers calls) hst now⟩
  | sampling =>
    exact ⟨tickSampling now, tickSampling_answersReachOnlyIoerr now s, fun answers calls =>
      execTick_sampling (s := s.withAnswers answers calls) hst now⟩

end Sys2Proof.Machine
end

section
/-! PROOFS. The statements of 43_scheduler.md on the guards, the output answers, the first cycle and NOP. -/

namespace Sys2Proof.Proofs

open Sys2Proof Sys2Proof.Machine

/-- Settles O29: the cycle invariant puts the turn-on after the last sample; each guard by its two comparisons of
integers, and by the comparator in 33 bits, in which no sum of two times wraps. -/
theorem guardsAreIntegerComparisons : Obligations.GuardsAreIntegerComparisons := by
  refine fun s now => ⟨fun hinv hst => ?_, gStart_iff s now, gWarm_iff s now, elapsed_eq_comparator _ _ _ _,
    elapsed_eq_comparator _ _ _ _⟩
  obtain ⟨-, -, turn_on_later⟩ := hinv
  exact (turn_on_later (by simp [hst])).le

/-- Settles O37: the two TICKs are one operation before two environments, whose answers reach `ioerr` alone. -/
theorem outputAnswersChangeOnlyIoerr : Obligations.OutputAnswersChangeOnlyIoerr := by
  intro s now answers calls
  obtain ⟨f, ⟨u, res, err, rd, n, same⟩, ticks⟩ := exec_tick_answersReachOnlyIoerr now s
  have tick_own := ticks s.outScript s.outCalls
  have tick_other := ticks answers calls
  rw [same] at tick_own tick_other
  refine ⟨_, _, res, err, rd, _, _, tick_own, tick_other, rfl, rfl, rfl, ?_, ?_⟩
  · show calls + n + s.outCalls = calls + (s.outCalls + n)
    omega
  · rw [State.withAnswers_self, Nat.add_sub_cancel_left]

/-- Settles O38: the general statement on the state after RESET, at the reset value `LSA` has in each mode. -/
theorem firstCycleAfterReset : Obligations.FirstCycleAfterReset := by
  intro s t now0 now hreset
  have first_tick := exec_tick_after_reset hreset now
  refine ⟨fun hmode => ?_, fun hmode => ?_⟩
  · simpa [hmode, resetLsa] using first_tick
  · simpa [hmode, resetLsa] using first_tick

/-- Settles O2: code 0 by its equation of the decoder; NOP only empties the result ports. -/
theorem nopDoesNothing : Obligations.NopDoesNothing := by
  refine ⟨fun rom p hrst hop => ?_, fun s => rfl⟩
  rw [decode_host, decodeHost_of_op_zero hrst hop]

end Sys2Proof.Proofs
end

section
/-! PROOFS. The registers under an instruction, the dead end, and the state RESET leaves (R27, R33, R172, R230). -/

namespace Sys2Proof.Machine

open Sys2Proof

/-- R100, R50: the encoder writes the transmit buffer and the result only. -/
theorem State.buildCommand_sameRegisters (c : Command) (s : State) : s.SameRegisters (s.buildCommand c) :=
  ⟨rfl, rfl, rfl, rfl⟩

/-- R120: a parse writes the frame buffer and the result only. -/
theorem parseBytes_sameRegisters (now : Time) (b : List Byte) (s : State) : s.SameRegisters (parseBytes now b s) := by
  rw [parseBytes_eq]
  exact ⟨rfl, rfl, rfl, rfl⟩

/-- R107: ENCODE builds a command or returns its error. -/
theorem exec_encode_sameRegisters {cmd : BitVec 3} {s t : State} (h : exec (.encode cmd) s = .next t) :
    s.SameRegisters t := by
  cases selected : Command.ofCode cmd with
  | some c =>
    rw [exec_encode_of_command selected] at h
    obtain rfl := Host.Outcome.next.inj h
    exact s.buildCommand_sameRegisters c
  | none =>
    rw [exec_encode_of_no_command selected] at h
    obtain rfl := Host.Outcome.next.inj h
    exact ⟨rfl, rfl, rfl, rfl⟩

theorem exec_ofCommand_sameRegisters {c : Command} {s t : State} (h : exec (.ofCommand c) s = .next t) :
    s.SameRegisters t := by
  rw [exec_ofCommand] at h
  obtain rfl := Host.Outcome.next.inj h
  exact s.buildCommand_sameRegisters c

/-- R27: only TICK and RESET write a register. -/
theorem exec_sameRegisters {i : Instr} {s t : State} (h : exec i s = .next t) (not_tick : ∀ now, i ≠ .tick now)
    (not_reset : ∀ now0, i ≠ .reset now0) : s.SameRegisters t := by
  cases i with
  | sleep => exact exec_ofCommand_sameRegisters (c := .sleep) h
  | wakeUp => exact exec_ofCommand_sameRegisters (c := .wakeUp) h
  | active => exact exec_ofCommand_sameRegisters (c := .activeMode) h
  | passive => exact exec_ofCommand_sameRegisters (c := .passiveMode) h
  | read => exact exec_ofCommand_sameRegisters (c := .readPassiveRequest) h
  | data now body =>
    obtain rfl := Host.Outcome.next.inj ((exec_data now body s).symm.trans h)
    exact parseBytes_sameRegisters now _ s
  | nop =>
    obtain rfl : s.deliver .none = t := Host.Outcome.next.inj h
    exact ⟨rfl, rfl, rfl, rfl⟩
  | tick now => exact absurd rfl (not_tick now)
  | parse now b =>
    obtain rfl := Host.Outcome.next.inj ((exec_parse now b s).symm.trans h)
    exact parseBytes_sameRegisters now b s
  | encode cmd => exact exec_encode_sameRegisters h
  | reset now0 => exact absurd rfl (not_reset now0)

/-- The dead end is a condition on the registers. -/
theorem State.DeadEnd.of_sameRegisters {s t : State} (hdead : s.DeadEnd) (same : s.SameRegisters t) : t.DeadEnd := by
  obtain ⟨st_eq, lsa_eq, lto_eq, -⟩ := same
  simpa only [State.DeadEnd, st_eq, lsa_eq, lto_eq] using hdead

/-- R172: in the dead end the second clause of `G_START` is false at every time. -/
theorem State.DeadEnd.not_gStart {s : State} (hdead : s.DeadEnd) (now : Time) : ¬ gStart s now = true := by
  obtain ⟨-, turn_on_later⟩ := hdead
  exact fun hg => turn_on_later.not_ge ((gStart_iff s now).mp hg).2

/-- R172: no TICK leads out of the dead end. -/
theorem State.DeadEnd.exec_tick {s : State} (hdead : s.DeadEnd) (now : Time) : exec (.tick now) s = .next s.idle :=
  exec_tick_of_not_gStart hdead.1 (hdead.not_gStart now)

/-- R172: in the dead end every instruction but RESET leaves the registers as they are, TICK too. -/
theorem State.DeadEnd.exec_sameRegisters {i : Instr} {s t : State} (hdead : s.DeadEnd) (h : exec i s = .next t)
    (not_reset : ∀ now0, i ≠ .reset now0) : s.SameRegisters t := by
  by_cases tick : ∃ now, i = .tick now
  · obtain ⟨now, rfl⟩ := tick
    obtain rfl := Host.Outcome.next.inj ((hdead.exec_tick now).symm.trans h)
    exact ⟨rfl, rfl, rfl, rfl⟩
  · exact Machine.exec_sameRegisters h (not_exists.mp tick) not_reset

/-- Before the first turn-on the block is not in the dead end. -/
theorem State.not_deadEnd_of_lto_zero {s : State} (h : s.lto = 0) : ¬ s.DeadEnd := by
  rintro ⟨-, turn_on_later⟩
  simp [h] at turn_on_later

/-- R33: in passive mode `LSA` starts at the time RESET is given. -/
theorem resetLsa_of_passive {m : Mode} (h : m = .passive) (now0 : Time) : resetLsa m now0 = now0 := by
  rw [h, resetLsa]

/-- R33: in active mode `LSA` starts at 0. -/
theorem resetLsa_of_active {m : Mode} (h : m = .active) (now0 : Time) : resetLsa m now0 = 0 := by
  rw [h, resetLsa]

end Sys2Proof.Machine
end

section
/-! PROOFS. The statements of 70_reset_and_hazards.md. -/

namespace Sys2Proof.Proofs

open Sys2Proof Sys2Proof.Machine

/-- Settles O42: the reset input by its equation of the decoder; the dead end by its registers, which no instruction but
RESET changes there; RESET by the whole state it leaves, in which the last turn-on is at 0. -/
theorem resetEffect : Obligations.ResetEffect := by
  refine ⟨fun rom p hrst => ?_, fun i s t hdead hexec not_reset => ?_, fun s now0 => ?_⟩
  · rw [decode_host, decodeHost_of_rst hrst]
  · exact hdead.of_sameRegisters (hdead.exec_sameRegisters hexec not_reset)
  · exact ⟨_, execReset_eq now0 s, State.not_deadEnd_of_lto_zero rfl, rfl, rfl, rfl,
      fun hmode => resetLsa_of_passive hmode now0, fun hmode => resetLsa_of_active hmode now0, rfl, rfl, rfl⟩

end Sys2Proof.Proofs
end

section
/-! PROOFS. The decoder of wire words: which outbound words are commands and which inbound sequences are frames, and that
the encoder undoes it (R71, R72, R78). -/

namespace Sys2Proof

/-- R53: a big-endian pair is its high byte and its low byte. -/
theorem memRead2_eq_iff {b : List Byte} {i : Nat} {v : Word16} :
    memRead2 b i = v ↔ byteAt b i = hi8 v ∧ byteAt b (i + 1) = lo8 v := by
  have high_lt : (byteAt b i).toNat < 2 ^ 8 := (byteAt b i).isLt
  have low_lt : (byteAt b (i + 1)).toNat < 2 ^ 8 := (byteAt b (i + 1)).isLt
  rw [← BitVec.toNat_inj, ← BitVec.toNat_inj, ← BitVec.toNat_inj, memRead2_toNat, hi8_toNat, lo8_toNat]
  omega

theorem Command.mem_all (c : Command) : c ∈ Command.all := by
  cases c <;> decide

/-- Where the entries of the ROM differ, an entry selects its own command. -/
theorem find_entry_eq_some {rom : OpcodeRom} (distinct : Machine.romDistinct rom) (c : Command) :
    Command.all.find? (fun d => rom.entry d == rom.entry c) = some c := by
  cases found : Command.all.find? (fun d => rom.entry d == rom.entry c) with
  | none => exact absurd (beq_self_eq_true _) (List.find?_eq_none.mp found c c.mem_all)
  | some d =>
    have same_entry := List.find?_some (p := fun d => rom.entry d == rom.entry c) found
    rw [distinct d c (eq_of_beq same_entry)]

/-- R71: the frame the encoder builds passes every check of the decoder and selects its command. -/
theorem decodeCommand_commandFrame {rom : OpcodeRom} (distinct : Machine.romDistinct rom) (c : Command) :
    decodeCommand rom (commandFrame rom c) = .ok (.ofCommand c) := by
  have checksum_agrees : cksum16 ((commandFrame rom c).take 5) = memRead2 (commandFrame rom c) 5 := by
    rw [commandFrame_take_five, eq_comm, memRead2_eq_iff]
    exact ⟨byteAt_commandFrame_five rom c, byteAt_commandFrame_six rom c⟩
  have synced : ¬(byteAt (commandFrame rom c) 0 ≠ sync0 ∨ byteAt (commandFrame rom c) 1 ≠ sync1) := by
    rintro (h | h) <;> exact h rfl
  have selected : Command.all.find? (fun d => rom.entry d ==
      ⟨byteAt (commandFrame rom c) 2, byteAt (commandFrame rom c) 3, byteAt (commandFrame rom c) 4⟩) = some c :=
    find_entry_eq_some distinct c
  unfold decodeCommand
  rw [if_neg (not_not_intro (Machine.commandFrame_length rom c)), if_neg synced,
    if_neg (not_not_intro checksum_agrees), selected]

/-- Seven bytes with the sync bytes, the opcode bytes of an entry and the checksum of the first five are the frame of
that entry. -/
theorem eq_commandFrame_of_checks {rom : OpcodeRom} {c : Command} {b : List Byte} (hlen : b.length = 7)
    (h0 : byteAt b 0 = sync0) (h1 : byteAt b 1 = sync1)
    (hentry : rom.entry c = ⟨byteAt b 2, byteAt b 3, byteAt b 4⟩) (hsum : cksum16 (b.take 5) = memRead2 b 5) :
    b = commandFrame rom c := by
  match b, hlen with
  | [b0, b1, b2, b3, b4, b5, b6], _ =>
    have head_eq : commandHead rom c = [b0, b1, b2, b3, b4] := by
      rw [commandHead, hentry, ← h0, ← h1]
      rfl
    obtain ⟨h5, h6⟩ := memRead2_eq_iff.mp hsum.symm
    change b5 = hi8 (cksum16 [b0, b1, b2, b3, b4]) at h5
    change b6 = lo8 (cksum16 [b0, b1, b2, b3, b4]) at h6
    rw [commandFrame, head_eq, h5, h6]
    rfl

/-- R71, R78: an outbound word is the frame of the command it decodes to, or it is no command. -/
theorem decodeCommand_cases (rom : OpcodeRom) (b : List Byte) :
    (∃ c, b = commandFrame rom c ∧ decodeCommand rom b = .ok (.ofCommand c)) ∨
    ∃ why, decodeCommand rom b = .error (.notACommand why) := by
  unfold decodeCommand
  split
  next => exact .inr ⟨_, rfl⟩
  next hlen =>
    split
    next => exact .inr ⟨_, rfl⟩
    next hsync =>
      obtain ⟨h0, h1⟩ := not_or.mp hsync
      split
      next => exact .inr ⟨_, rfl⟩
      next hsum =>
        split
        next c found =>
          have hentry := eq_of_beq (List.find?_some (p := fun c => rom.entry c == _) found)
          exact .inl ⟨c, eq_commandFrame_of_checks (not_not.mp hlen) (not_not.mp h0) (not_not.mp h1) hentry
            (not_not.mp hsum), rfl⟩
        next => exact .inr ⟨_, rfl⟩

/-- R78: an inbound sequence of another length is no frame. -/
theorem decodeFrame_of_length_ne {b : List Byte} (now : Time) (hlen : b.length ≠ 32) :
    decodeFrame now b = .error (.notAFrame .frameTooShort) := by
  rw [decodeFrame, if_pos hlen]

/-- R78: 32 bytes without the sync bytes are no frame. -/
theorem decodeFrame_of_not_sync {b : List Byte} (now : Time) (hlen : b.length = 32)
    (hsync : ¬(byteAt b 0 = sync0 ∧ byteAt b 1 = sync1)) : decodeFrame now b = .error (.notAFrame .badSync) := by
  rw [decodeFrame, if_neg (not_not_intro hlen), if_pos (not_and_or.mp hsync)]

/-- R72: the sync bytes and thirty bytes more are the frame of those thirty. -/
theorem decodeFrame_sync_cons {body : List Byte} (now : Time) (hlen : body.length = 30) :
    decodeFrame now (sync0 :: sync1 :: body) = .ok (.data now body) := by
  have synced : ¬(byteAt (sync0 :: sync1 :: body) 0 ≠ sync0 ∨ byteAt (sync0 :: sync1 :: body) 1 ≠ sync1) := by
    rintro (h | h) <;> exact h rfl
  rw [decodeFrame, if_neg (by simp [hlen]), if_neg synced]
  rfl

/-- A frame is its two sync bytes and the thirty after them. -/
theorem exists_body_of_sync {b : List Byte} (hlen : b.length = 32) (h0 : byteAt b 0 = sync0)
    (h1 : byteAt b 1 = sync1) : ∃ body, body.length = 30 ∧ b = sync0 :: sync1 :: body := by
  match b, hlen with
  | b0 :: b1 :: body, hlen =>
    change b0 = sync0 at h0
    change b1 = sync1 at h1
    exact ⟨body, by simpa using hlen, by rw [h0, h1]⟩

/-- R72, R78: an inbound sequence is the frame of the thirty bytes it decodes to, or it is no frame. -/
theorem decodeFrame_cases (now : Time) (b : List Byte) :
    (∃ body, body.length = 30 ∧ b = sync0 :: sync1 :: body ∧ decodeFrame now b = .ok (.data now body)) ∨
    ∃ e, decodeFrame now b = .error (.notAFrame e) := by
  by_cases hlen : b.length = 32
  · by_cases hsync : byteAt b 0 = sync0 ∧ byteAt b 1 = sync1
    · obtain ⟨body, body_length, rfl⟩ := exists_body_of_sync hlen hsync.1 hsync.2
      exact .inl ⟨body, body_length, rfl, decodeFrame_sync_cons now body_length⟩
    · exact .inr ⟨_, decodeFrame_of_not_sync now hlen hsync⟩
  · exact .inr ⟨_, decodeFrame_of_length_ne now hlen⟩

theorem encode_ofCommand (rom : OpcodeRom) (c : Command) :
    encode rom (.ofCommand c) = .outbound (commandFrame rom c) := by
  cases c <;> rfl

theorem wellFormed_ofCommand (c : Command) : (Instr.ofCommand c).WellFormed = true := by
  cases c <;> rfl

theorem decode_encode_ofCommand {rom : OpcodeRom} (distinct : Machine.romDistinct rom) (c : Command) :
    decode rom (encode rom (.ofCommand c)) = .ok (.ofCommand c) := by
  rw [encode_ofCommand, decode, decodeCommand_commandFrame distinct]

/-- R71, R72, R76: the decoder undoes the encoder, row by row. -/
theorem decode_encode {rom : OpcodeRom} (distinct : Machine.romDistinct rom) {i : Instr}
    (wf : i.WellFormed = true) : decode rom (encode rom i) = .ok i := by
  cases i with
  | sleep => exact decode_encode_ofCommand distinct .sleep
  | wakeUp => exact decode_encode_ofCommand distinct .wakeUp
  | active => exact decode_encode_ofCommand distinct .activeMode
  | passive => exact decode_encode_ofCommand distinct .passiveMode
  | read => exact decode_encode_ofCommand distinct .readPassiveRequest
  | data now body =>
    have body_length : body.length = 30 := by simpa [Instr.WellFormed] using wf
    exact decodeFrame_sync_cons now body_length
  | nop => exact congrArg _ (decodeHost_of_op_zero rfl rfl)
  | tick now => exact congrArg _ (decodeHost_of_op_one rfl rfl)
  | parse now b => exact congrArg _ (decodeHost_of_op_two rfl rfl)
  | encode cmd => exact congrArg _ (decodeHost_of_op_three rfl rfl)
  | reset now0 => exact congrArg _ (decodeHost_of_rst rfl)

/-- R71, R72: the encoder undoes the decoder of outbound words, also where entries of the ROM coincide. -/
theorem encode_of_decodeCommand {rom : OpcodeRom} {b : List Byte} {i : Instr} (h : decodeCommand rom b = .ok i) :
    encode rom i = .outbound b ∧ i.WellFormed = true := by
  obtain ⟨c, rfl, decoded⟩ | ⟨why, failed⟩ := decodeCommand_cases rom b
  · obtain rfl := Except.ok.inj (decoded.symm.trans h)
    exact ⟨encode_ofCommand rom c, wellFormed_ofCommand c⟩
  · cases failed.symm.trans h

/-- R72: the encoder undoes the decoder of inbound sequences. -/
theorem encode_of_decodeFrame {now : Time} {b : List Byte} {i : Instr} (h : decodeFrame now b = .ok i)
    (rom : OpcodeRom) : encode rom i = .inbound now b ∧ i.WellFormed = true := by
  obtain ⟨body, body_length, rfl, decoded⟩ | ⟨e, failed⟩ := decodeFrame_cases now b
  · obtain rfl := Except.ok.inj (decoded.symm.trans h)
    exact ⟨rfl, by simpa [Instr.WellFormed] using body_length⟩
  · cases failed.symm.trans h

/-- R78: only an outbound word can be no command. -/
theorem decode_notACommand {rom : OpcodeRom} {r : Request} {why : CommandError}
    (h : decode rom r = .error (.notACommand why)) : ∃ b, r = .outbound b := by
  cases r with
  | host p => cases h
  | outbound b => exact ⟨b, rfl⟩
  | inbound now b =>
    obtain ⟨_, _, _, decoded⟩ | ⟨e, failed⟩ := decodeFrame_cases now b
    · cases decoded.symm.trans h
    · cases failed.symm.trans h

/-- R76: only the reset input is RESET. -/
theorem decode_reset {rom : OpcodeRom} {r : Request} {now0 : Time} (h : decode rom r = .ok (.reset now0)) :
    ∃ p, r = .host p ∧ p.rst = true := by
  cases r with
  | host p =>
    refine ⟨p, rfl, ?_⟩
    by_contra hrst
    simp only [decode_host, decodeHost, hrst, if_false, Except.ok.injEq] at h
    split at h <;> cases h
  | outbound b =>
    obtain ⟨c, -, decoded⟩ | ⟨why, failed⟩ := decodeCommand_cases rom b
    · have row := Except.ok.inj (decoded.symm.trans h)
      cases c <;> cases row
    · cases failed.symm.trans h
  | inbound now b =>
    obtain ⟨_, _, _, decoded⟩ | ⟨e, failed⟩ := decodeFrame_cases now b
    · cases decoded.symm.trans h
    · cases failed.symm.trans h

end Sys2Proof
end

section
/-! PROOFS. The bytes of a number in the order of the opcode table, and the pairs of them (R81). -/

namespace Sys2Proof

@[simp] theorem beBytes_length (n w : Nat) : (beBytes n w).length = n := by
  induction n with
  | zero => rfl
  | succ n ih => simp [beBytes, ih]

/-- R81: byte `i` of `n` weighs `256 ^ (n - 1 - i)`. -/
theorem byteAt_beBytes (w : Nat) {n i : Nat} (h : i < n) :
    byteAt (beBytes n w) i = BitVec.ofNat 8 (w / 256 ^ (n - 1 - i)) := by
  induction n generalizing i with
  | zero => omega
  | succ n ih =>
    cases i with
    | zero => rfl
    | succ i =>
      calc byteAt (beBytes (n + 1) w) (i + 1)
          = byteAt (beBytes n w) i := rfl
        _ = BitVec.ofNat 8 (w / 256 ^ (n - 1 - i)) := ih (by omega)
        _ = BitVec.ofNat 8 (w / 256 ^ (n + 1 - 1 - (i + 1))) := by congr 3; omega

/-- R81: two bytes side by side are sixteen bits of the number. -/
theorem memRead2_beBytes (w : Nat) {n i : Nat} (h : i + 2 ≤ n) :
    memRead2 (beBytes n w) i = BitVec.ofNat 16 (w / 256 ^ (n - 2 - i)) := by
  have high_place : w / 256 ^ (n - 1 - i) = w / 256 ^ (n - 2 - i) / 256 := by
    rw [Nat.div_div_eq_div_mul, ← pow_succ]
    congr 2
    omega
  have low_place : n - 1 - (i + 1) = n - 2 - i := by omega
  apply BitVec.eq_of_toNat_eq
  rw [memRead2_toNat, byteAt_beBytes w (by omega), byteAt_beBytes w (by omega), high_place, low_place,
    BitVec.toNat_ofNat, BitVec.toNat_ofNat, BitVec.toNat_ofNat]
  omega

/-- R81: a 256-bit word with 42 4D on top is presented as the frame of its other thirty bytes. -/
theorem decodeTableWord_frame {w : Nat} {body : List Byte} (hlen : body.length = 30)
    (hbytes : beBytes 32 w = sync0 :: sync1 :: body) : decodeTableWord 256 w = some (.data 0 body) := by
  have requested : requestOfTableWord 256 w = .inbound 0 (sync0 :: sync1 :: body) := by
    rw [requestOfTableWord, if_pos rfl, hbytes]
  rw [decodeTableWord, requested, decode, decodeFrame_sync_cons 0 hlen]
  rfl

theorem exists_body_of_beBytes {w : Nat} (hsync : w / 2 ^ 240 = 0x424D) :
    ∃ body, body.length = 30 ∧ beBytes 32 w = sync0 :: sync1 :: body := by
  have top : memRead2 (beBytes 32 w) 0 = 0x424D := by
    rw [memRead2_beBytes w (by omega), show 256 ^ (32 - 2 - 0) = 2 ^ 240 by norm_num, hsync]
    rfl
  obtain ⟨h0, h1⟩ := memRead2_eq_iff.mp top
  exact exists_body_of_sync (beBytes_length 32 w) h0 h1

end Sys2Proof
end

section
/-! PROOFS. A step by what the next request decodes to, and that every instruction answers (R57, R78, R200). -/

namespace Sys2Proof.Machine

open Sys2Proof

variable {s : State} {r : Request} {rest : List Request}

theorem step_of_pending_nil (hp : s.pending = []) : step s = .next s := by
  simp only [step, State.fetch, hp]

theorem step_of_decode_ok {i : Instr} (hp : s.pending = r :: rest) (hd : decode s.cfg.opc r = .ok i) :
    step s = exec i { s with pending := rest } := by
  simp only [step, State.fetch, hp, hd]

theorem step_of_decode_error {e : DecodeError} (hp : s.pending = r :: rest) (hd : decode s.cfg.opc r = .error e) :
    step s = { s with pending := rest }.reject e := by
  simp only [step, State.fetch, hp, hd]

/-- R200: a TICK answers in each state of the scheduler. -/
theorem exec_tick_answers (now : Time) (s : State) : ∃ t, exec (.tick now) s = .next t := by
  cases hst : s.st with
  | dormant => exact ⟨_, execTick_dormant hst now⟩
  | warmingUp => exact ⟨_, execTick_warmingUp hst now⟩
  | sampling => exact ⟨_, execTick_sampling hst now⟩

/-- R107: ENCODE answers a frame or its error. -/
theorem exec_encode_answers (cmd : BitVec 3) (s : State) : ∃ t, exec (.encode cmd) s = .next t := by
  cases selected : Command.ofCode cmd with
  | some c => exact ⟨_, exec_encode_of_command selected s⟩
  | none => exact ⟨_, exec_encode_of_no_command selected s⟩

/-- R200, R210: no instruction stops the block. -/
theorem exec_answers (i : Instr) (s : State) : ∃ t, exec i s = .next t := by
  cases i with
  | sleep => exact ⟨_, exec_ofCommand .sleep s⟩
  | wakeUp => exact ⟨_, exec_ofCommand .wakeUp s⟩
  | active => exact ⟨_, exec_ofCommand .activeMode s⟩
  | passive => exact ⟨_, exec_ofCommand .passiveMode s⟩
  | read => exact ⟨_, exec_ofCommand .readPassiveRequest s⟩
  | data now body => exact ⟨_, exec_data now body s⟩
  | nop => exact ⟨s.deliver .none, rfl⟩
  | tick now => exact exec_tick_answers now s
  | parse now b => exact ⟨_, exec_parse now b s⟩
  | encode cmd => exact exec_encode_answers cmd s
  | reset now0 => exact ⟨_, execReset_eq now0 s⟩

/-- R78: a step is refused only for an outbound word that is no command. -/
theorem step_answers_or_refuses (s : State) :
    (∃ t, step s = .next t) ∨
    ∃ b rest why, s.pending = .outbound b :: rest ∧ decode s.cfg.opc (.outbound b) = .error (.notACommand why) ∧
      step s = .refused (.notACommand why) := by
  cases hp : s.pending with
  | nil => exact .inl ⟨s, step_of_pending_nil hp⟩
  | cons r rest =>
    cases hd : decode s.cfg.opc r with
    | ok i =>
      obtain ⟨t, answered⟩ := exec_answers i { s with pending := rest }
      exact .inl ⟨t, (step_of_decode_ok hp hd).trans answered⟩
    | error e =>
      cases e with
      | notAFrame e => exact .inl ⟨_, step_of_decode_error hp hd⟩
      | notACommand why =>
        obtain ⟨b, rfl⟩ := decode_notACommand hd
        exact .inr ⟨b, rest, why, rfl, hd, step_of_decode_error hp hd⟩

end Sys2Proof.Machine
end

section
/-! PROOFS. The statements of 30_encoding.md on decoding and encoding, and those on single steps. -/

namespace Sys2Proof.Proofs

open Sys2Proof Sys2Proof.Machine

/-- Settles O5: row by row; a command's frame passes the checks of the decoder and, the entries being distinct, selects
its own command. -/
theorem decodeOfEncodeIsTheInstruction : Obligations.DecodeOfEncodeIsTheInstruction :=
  fun _ distinct _ wf => decode_encode distinct wf

/-- Settles O6: by the direction of the word, each decoder by what it accepts. -/
theorem wireWordsHaveOneEncoding : Obligations.WireWordsHaveOneEncoding := by
  intro rom r i not_host decoded
  cases r with
  | host p => exact absurd rfl (not_host p)
  | outbound b => exact encode_of_decodeCommand decoded
  | inbound now b => exact encode_of_decodeFrame decoded rom

/-- Settles O7: a pair of bytes at offset `j` is the sixteen bits of the word that `256 ^ (30 - j)` brings down. -/
theorem dataWordFieldPositions : Obligations.DataWordFieldPositions := by
  intro w _ hsync
  obtain ⟨body, body_length, hbytes⟩ := exists_body_of_beBytes hsync
  refine ⟨body, decodeTableWord_frame body_length hbytes, body_length, fun k hk => ?_, ?_⟩
  · have weight : (256 : Nat) ^ (32 - 2 - (4 + 2 * k)) = 2 ^ (208 - 16 * k) := by
      rw [show (256 : Nat) = 2 ^ 8 by norm_num, ← pow_mul]
      congr 1
      omega
    rw [← hbytes, frameField, memRead2_beBytes w (by omega), weight]
  · rw [← hbytes, memRead2_beBytes w (by omega), show 32 - 2 - 30 = 0 by omega, pow_zero, Nat.div_one]

/-- Settles O9: every instruction answers, and of the requests that are no instruction only an outbound word is
refused. -/
theorem everyStepAnswers : Obligations.EveryStepAnswers := step_answers_or_refuses

/-- Settles O1: the step by what the request decodes to. -/
theorem stepRunsDecodedInstruction : Obligations.StepRunsDecodedInstruction :=
  ⟨fun _ _ _ _ hp hd _ => step_of_decode_ok hp hd, fun _ hp => step_of_pending_nil hp⟩

/-- Settles O4: eight fixed words, decoded. -/
theorem tableWordsDecodeToTheirRows : Obligations.TableWordsDecodeToTheirRows := by
  unfold Obligations.TableWordsDecodeToTheirRows
  decide

/-- Settles O8: the decoder's error by the first check that fails; an outbound word that it accepts would be a command's
frame. -/
theorem requestsThatAreNoInstruction : Obligations.RequestsThatAreNoInstruction := by
  refine fun s rest b => ⟨fun now hp hlen => ?_, fun now hp hlen hsync => ?_, fun hp no_command => ?_⟩
  · exact step_of_decode_error hp (decodeFrame_of_length_ne now hlen)
  · exact step_of_decode_error hp (decodeFrame_of_not_sync now hlen hsync)
  · obtain ⟨c, is_frame, -⟩ | ⟨why, failed⟩ := decodeCommand_cases s.cfg.opc b
    · exact absurd is_frame (no_command c)
    · exact ⟨why, step_of_decode_error hp failed⟩

end Sys2Proof.Proofs
end

section
/-! PROOFS. A byte read from a buffer after a write and after a fill (R63, R64). -/

namespace Sys2Proof.Machine

open Sys2Proof

/-- R63: a write changes the byte at its own offset only. -/
theorem Memory.read_write (m : Memory) (a : Nat) (v : Byte) (a' : Nat) :
    Memory.read (Memory.write m a v) a' = if a' = a then some v else Memory.read m a' := by
  induction m with
  | nil => simp only [Memory.write, Memory.read, eq_comm]
  | cons d r ih =>
    obtain ⟨k, w⟩ := d
    simp only [Memory.write]
    split
    next => simp only [Memory.read, eq_comm]
    next =>
      split
      next here =>
        subst here
        simp only [Memory.read, eq_comm]
        split <;> rfl
      next elsewhere =>
        simp only [Memory.read, ih]
        split
        next at_head => rw [if_neg (by omega)]
        next => rfl

/-- R64: the last byte that arrives is the last that is written. -/
theorem Memory.writeFrom_concat (m : Memory) (a : Nat) (b : List Byte) (x : Byte) :
    Memory.writeFrom m a (b ++ [x]) = Memory.write (Memory.writeFrom m a b) (a + b.length) x := by
  induction b generalizing m a with
  | nil => rfl
  | cons v r ih =>
    rw [List.cons_append, Memory.writeFrom, ih, Memory.writeFrom, List.length_cons, Nat.add_right_comm, Nat.add_assoc]

/-- R64: in a buffer filled whole each byte stands at the offset of its place, and no other offset has a value. -/
theorem Memory.read_fill (b : List Byte) (i : Nat) : Memory.read (Memory.fill b) i = b[i]? := by
  induction b using List.reverseRecOn with
  | nil => rfl
  | append_singleton b x ih =>
    calc Memory.read (Memory.fill (b ++ [x])) i
        = Memory.read (Memory.write (Memory.fill b) b.length x) i := by
          rw [Memory.fill, Memory.writeFrom_concat, Nat.zero_add, Memory.fill]
      _ = if i = b.length then some x else b[i]? := by rw [Memory.read_write, ih]
      _ = (b ++ [x])[i]? := by
          split
          next last => rw [last, List.getElem?_concat_length]
          next not_last =>
            rw [List.getElem?_append]
            split
            next => rfl
            next beyond => rw [List.getElem?_eq_none (by omega), List.getElem?_eq_none (by simp; omega)]

end Sys2Proof.Machine
end

section
/-! PROOFS. A byte sequence with one byte replaced: its bytes and its sum (R127). -/

namespace Sys2Proof

theorem byteAt_set (b : List Byte) (i : Nat) (v : Byte) (j : Nat) :
    byteAt (b.set i v) j = if j = i ∧ i < b.length then v else byteAt b j := by
  simp only [byteAt, List.getD_eq_getElem?_getD, List.getElem?_set]
  by_cases same : i = j
  · subst same
    by_cases inside : i < b.length <;> simp [inside]
  · simp [same, Ne.symm same]

theorem byteAt_set_self {b : List Byte} {i : Nat} (v : Byte) (h : i < b.length) : byteAt (b.set i v) i = v := by
  rw [byteAt_set, if_pos ⟨rfl, h⟩]

theorem byteAt_set_of_ne (b : List Byte) {i j : Nat} (v : Byte) (h : j ≠ i) : byteAt (b.set i v) j = byteAt b j := by
  rw [byteAt_set, if_neg fun hj => h hj.1]

theorem byteAt_take {b : List Byte} {i n : Nat} (h : i < n) : byteAt (b.take n) i = byteAt b i := by
  simp [byteAt, h]

/-- The sum of some bytes, not reduced (R124). -/
def byteSum (p : List Byte) : Nat := (p.map BitVec.toNat).sum

@[simp] theorem byteSum_cons (x : Byte) (p : List Byte) : byteSum (x :: p) = x.toNat + byteSum p := by
  simp [byteSum]

/-- In the sum the new byte stands in for the old one. -/
theorem byteSum_set {b : List Byte} {i : Nat} (v : Byte) (h : i < b.length) :
    byteSum (b.set i v) + (byteAt b i).toNat = byteSum b + v.toNat := by
  induction b generalizing i with
  | nil => simp at h
  | cons x r ih =>
    cases i with
    | zero =>
      change byteSum (v :: r) + x.toNat = _
      simp only [byteSum_cons]
      omega
    | succ i =>
      have in_tail := ih (i := i) (by simpa using h)
      change byteSum (x :: r.set i v) + (byteAt r i).toNat = _
      simp only [byteSum_cons]
      omega

/-- A byte past the first `n` is not in their sum. -/
theorem take_set_of_le (b : List Byte) {i n : Nat} (v : Byte) (h : n ≤ i) : (b.set i v).take n = b.take n := by
  rw [List.take_set, List.set_eq_of_length_le (by simp; omega)]

theorem byteSum_take_set {b : List Byte} {i n : Nat} (v : Byte) (hi : i < n) (hn : n ≤ b.length) :
    byteSum ((b.set i v).take n) + (byteAt b i).toNat = byteSum (b.take n) + v.toNat := by
  have inside : i < (b.take n).length := by simp; omega
  rw [List.take_set, ← byteAt_take hi, byteSum_set v inside]

end Sys2Proof
end

section
/-! PROOFS. The valid frames: what the three checks of the codec accept (R123, R124, R127). -/

namespace Sys2Proof.Machine

open Sys2Proof

/-- R120, R123: 32 bytes that begin 42 4D and end in the sum of the first thirty, which is too small to wrap. -/
structure ValidFrame (b : List Byte) : Prop where
  length_eq : b.length = 32
  byte0 : byteAt b 0 = sync0
  byte1 : byteAt b 1 = sync1
  sum_eq : byteSum (b.take 30) = 256 * (byteAt b 30).toNat + (byteAt b 31).toNat

theorem cksum16_take_thirty_toNat (b : List Byte) : (cksum16 (b.take 30)).toNat = byteSum (b.take 30) :=
  cksum16_toNat_of_length_le (by simp)

/-- The valid frames are those that parse, and the Reading is that of the reading decoder. -/
theorem parseFrame_eq_ok_iff {now : Time} {b : List Byte} {r : Reading} :
    parseFrame now b = .ok r ↔ ValidFrame b ∧ r = decodeReading now b := by
  constructor
  · intro parsed
    have hlen : b.length = 32 := by
      by_contra wrong_length
      cases ((parseFrame_eq_frameTooShort_iff now b).mpr wrong_length).symm.trans parsed
    have hsync : byteAt b 0 = sync0 ∧ byteAt b 1 = sync1 := by
      by_contra not_sync
      cases (parseFrame_of_not_sync now hlen not_sync).symm.trans parsed
    obtain ⟨h0, h1⟩ := hsync
    have hsum : (cksum16 (b.take 30)).toNat = 256 * (byteAt b 30).toNat + (byteAt b 31).toNat := by
      by_contra differ
      cases ((parseFrame_eq_checksumMismatch_iff now hlen h0 h1).mpr differ).symm.trans parsed
    have passed := parseFrame_of_checksum now hlen h0 h1 hsum
    exact ⟨⟨hlen, h0, h1, by rw [← cksum16_take_thirty_toNat, hsum]⟩, Except.ok.inj (parsed.symm.trans passed)⟩
  · rintro ⟨valid, rfl⟩
    exact parseFrame_of_checksum now valid.length_eq valid.byte0 valid.byte1
      (by rw [cksum16_take_thirty_toNat, valid.sum_eq])

theorem ValidFrame.parseFrame_ok {b : List Byte} (valid : ValidFrame b) (now : Time) : ∃ r, parseFrame now b = .ok r :=
  ⟨_, parseFrame_eq_ok_iff.mpr ⟨valid, rfl⟩⟩

theorem parseFrame_of_sum_ne {b : List Byte} (now : Time) (hlen : b.length = 32) (h0 : byteAt b 0 = sync0)
    (h1 : byteAt b 1 = sync1) (hsum : byteSum (b.take 30) ≠ 256 * (byteAt b 30).toNat + (byteAt b 31).toNat) :
    parseFrame now b = .error .checksumMismatch :=
  (parseFrame_eq_checksumMismatch_iff now hlen h0 h1).mpr (by rwa [cksum16_take_thirty_toNat])

variable {b : List Byte} {i : Nat} {v : Byte}

/-- R127 (a): a sync byte changed. -/
theorem ValidFrame.parseFrame_set_sync (valid : ValidFrame b) (now : Time) (hi : i < 2) (hv : v ≠ byteAt b i) :
    parseFrame now (b.set i v) = .error .badSync := by
  refine parseFrame_of_not_sync now (by rw [List.length_set, valid.length_eq]) ?_
  rintro ⟨h0, h1⟩
  have changed : byteAt (b.set i v) i = v := byteAt_set_self v (by rw [valid.length_eq]; omega)
  obtain rfl | rfl : i = 0 ∨ i = 1 := by omega
  · exact hv (changed.symm.trans (h0.trans valid.byte0.symm))
  · exact hv (changed.symm.trans (h1.trans valid.byte1.symm))

/-- R127 (a): a changed byte changes the sum, or one of the two bytes the sum is compared with, and never both. -/
theorem ValidFrame.sum_ne_after_set (valid : ValidFrame b) (hi : i < 32) (hv : v ≠ byteAt b i) :
    byteSum ((b.set i v).take 30) ≠
      256 * (byteAt (b.set i v) 30).toNat + (byteAt (b.set i v) 31).toNat := by
  have sum_eq := valid.sum_eq
  have length_eq := valid.length_eq
  have value_ne : v.toNat ≠ (byteAt b i).toNat := fun same => hv (BitVec.eq_of_toNat_eq same)
  by_cases summed : i < 30
  · have replaced := byteSum_take_set v summed (by omega : 30 ≤ b.length)
    rw [byteAt_set_of_ne b v (by omega), byteAt_set_of_ne b v (by omega)]
    omega
  · rw [take_set_of_le b v (by omega)]
    obtain rfl | rfl : i = 30 ∨ i = 31 := by omega
    · rw [byteAt_set_self v (by omega), byteAt_set_of_ne b v (by decide)]
      omega
    · rw [byteAt_set_self v (by omega), byteAt_set_of_ne b v (by decide)]
      omega

/-- R127 (a): a byte after the sync bytes changed. -/
theorem ValidFrame.parseFrame_set_checksum (valid : ValidFrame b) (now : Time) (hlo : 2 ≤ i) (hi : i < 32)
    (hv : v ≠ byteAt b i) : parseFrame now (b.set i v) = .error .checksumMismatch := by
  refine parseFrame_of_sum_ne now (by rw [List.length_set, valid.length_eq]) ?_ ?_ (valid.sum_ne_after_set hi hv)
  · rw [byteAt_set_of_ne b v (by omega), valid.byte0]
  · rw [byteAt_set_of_ne b v (by omega), valid.byte1]

/-- R127 (b): two bytes at offsets 2 to 29 replaced by two of the same sum. -/
theorem ValidFrame.set_set (valid : ValidFrame b) {j : Nat} {x y : Byte} (hi : 2 ≤ i) (hi' : i < 30) (hj : 2 ≤ j)
    (hj' : j < 30) (hsum : (byteAt b i).toNat + (byteAt (b.set i x) j).toNat = x.toNat + y.toNat) :
    ValidFrame ((b.set i x).set j y) := by
  have length_eq := valid.length_eq
  have first := byteSum_take_set (n := 30) x hi' (by omega : 30 ≤ b.length)
  have second := byteSum_take_set (n := 30) y hj' (by rw [List.length_set]; omega : 30 ≤ (b.set i x).length)
  have unchanged : ∀ k, k ≠ i → k ≠ j → byteAt ((b.set i x).set j y) k = byteAt b k := fun k hki hkj => by
    rw [byteAt_set_of_ne _ y hkj, byteAt_set_of_ne b x hki]
  constructor
  · rw [List.length_set, List.length_set, length_eq]
  · rw [unchanged 0 (by omega) (by omega), valid.byte0]
  · rw [unchanged 1 (by omega) (by omega), valid.byte1]
  · rw [unchanged 30 (by omega) (by omega), unchanged 31 (by omega) (by omega), ← valid.sum_eq]
    omega

/-- R124: 42 4D and 28 bytes more. -/
theorem ValidFrame.sum_bounds (valid : ValidFrame b) :
    143 ≤ byteSum (b.take 30) ∧ byteSum (b.take 30) ≤ 7283 := by
  obtain ⟨body, body_length, rfl⟩ := exists_body_of_sync valid.length_eq valid.byte0 valid.byte1
  have payload_le : byteSum (body.take 28) ≤ (body.take 28).length * 255 := byteSum_le (body.take 28)
  have payload_length : (body.take 28).length = 28 := by rw [List.length_take, body_length]; rfl
  have sync_sum : sync0.toNat + sync1.toNat = 143 := rfl
  have sum_eq : byteSum ((sync0 :: sync1 :: body).take 30) = sync0.toNat + (sync1.toNat + byteSum (body.take 28)) := by
    simp only [List.take_succ_cons, byteSum_cons]
  omega

/-- R106: the entry of `ReadPassiveRequest` is no parameter of the ROM. -/
theorem commandFrame_readPassiveRequest (rom : OpcodeRom) :
    commandFrame rom .readPassiveRequest = [0x42, 0x4D, 0xE2, 0x00, 0x00, 0x01, 0x71] := by
  have head_eq : commandHead rom .readPassiveRequest = [0x42, 0x4D, 0xE2, 0x00, 0x00] := rfl
  rw [commandFrame, head_eq]
  decide

end Sys2Proof.Machine
end

section
/-! PROOFS. The statements of 20_memory.md and 40_command_encoder.md on the buffers and the command rows, and of
41_frame_codec.md on valid frames. -/

namespace Sys2Proof.Proofs

open Sys2Proof Sys2Proof.Machine

/-- Settles O10: by induction on the buffer, along the place the write takes in it. -/
theorem readAfterWrite : Obligations.ReadAfterWrite := Memory.read_write

/-- Settles O11: by induction on the bytes in arrival order, the last one written last. -/
theorem bufferIsFilledInArrivalOrder : Obligations.BufferIsFilledInArrivalOrder := Memory.read_fill

/-- Settles O21: each buffer is filled whole, with the parsed bytes or with the frame of the selected command. -/
theorem buffersHoldTheLastFrame : Obligations.BuffersHoldTheLastFrame := by
  refine fun s t => ⟨fun now b hlen hexec a => ?_, fun n c hn hexec a => ?_⟩
  · obtain rfl := Host.Outcome.next.inj ((exec_parse now b s).symm.trans hexec)
    rw [parseBytes_eq, if_pos hlen, Memory.read_fill]
  · rw [Command.ofNat_eq_code_of_getElem? hn, exec_encode_of_command c.ofCode_code] at hexec
    obtain rfl := Host.Outcome.next.inj hexec
    rw [State.buildCommand_eq, Memory.read_fill]

/-- Settles O25: DATA hands 32 synced bytes to the codec, so the sum of thirty, which does not wrap, alone decides. -/
theorem dataFrameIsParsed : Obligations.DataFrameIsParsed := by
  intro s now body body_length
  have frame_length : (sync0 :: sync1 :: body).length = 32 := by simp [body_length]
  refine ⟨fun agree => ?_, fun differ => ?_⟩
  · have valid : ValidFrame (sync0 :: sync1 :: body) := ⟨frame_length, rfl, rfl, agree⟩
    rw [exec_data, parseBytes_of_ok (parseFrame_eq_ok_iff.mpr ⟨valid, rfl⟩), if_pos frame_length]
    rfl
  · have mismatch := parseFrame_of_sum_ne now frame_length rfl rfl differ
    rw [exec_data, parseBytes_of_error mismatch, if_pos frame_length]
    rfl

/-- Settles O26: a changed sync byte fails the second check; any other byte stands on one side only of the comparison
of the third. -/
theorem oneChangedByteIsCaught : Obligations.OneChangedByteIsCaught := by
  intro now b r i v parsed hi hv
  obtain ⟨valid, -⟩ := parseFrame_eq_ok_iff.mp parsed
  split
  next in_sync => exact valid.parseFrame_set_sync now in_sync hv
  next past_sync => exact valid.parseFrame_set_checksum now (by omega) hi hv

/-- Settles O27: both changes put two bytes of the same sum in the place of two. -/
theorem sumKeepingChangesPass : Obligations.SumKeepingChangesPass := by
  intro now b r i j parsed hi hi' hj hj'
  obtain ⟨valid, -⟩ := parseFrame_eq_ok_iff.mp parsed
  refine ⟨(valid.set_set hi hi' hj hj' ?_).parseFrame_ok now, fun hij below_max above_zero =>
    (valid.set_set hi hi' hj hj' ?_).parseFrame_ok now⟩
  · rw [byteAt_set]
    split
    next same => rw [same.1, Nat.add_comm]
    next => rw [Nat.add_comm]
  · have raised : (byteAt b i + 1).toNat = (byteAt b i).toNat + 1 := by bv_omega
    have lowered : (byteAt b j - 1).toNat = (byteAt b j).toNat - 1 := by bv_omega
    rw [byteAt_set_of_ne b _ (Ne.symm hij), raised, lowered]
    omega

/-- Settles O28: the stored checksum is the sum of 42 4D and 28 bytes, each at most 255. -/
theorem validChecksumRange : Obligations.ValidChecksumRange := by
  intro now b r parsed
  obtain ⟨valid, -⟩ := parseFrame_eq_ok_iff.mp parsed
  rw [← valid.sum_eq]
  exact valid.sum_bounds

/-- Settles O13: each row is the encoder on its command. -/
theorem commandsReturnTheirFrames : Obligations.CommandsReturnTheirFrames := by
  intro s
  simp only [← State.buildCommand_eq]
  exact ⟨rfl, rfl, rfl, rfl, rfl⟩

/-- Settles O17: the entry of `ReadPassiveRequest` is no parameter of the ROM, so its frame is one for every ROM. -/
theorem readFrameIsFixed : Obligations.ReadFrameIsFixed := by
  refine fun s => ⟨_, exec_ofCommand .readPassiveRequest s, ?_⟩
  rw [State.buildCommand_eq, commandFrame_readPassiveRequest]

end Sys2Proof.Proofs
end

section
/-! PROOFS. The edges of the scheduler: what a TICK does in each state, with the whole state after it (R160 to R171). -/

namespace Sys2Proof.Machine

open Sys2Proof

/-- The commands of the edge into Sampling (R166). -/
def requestCommands (cfg : Config) : List Command :=
  match cfg.mode with
  | .passive => [.readPassiveRequest]
  | .active => []

theorem requestEvents_eq (cfg : Config) : requestEvents cfg = txEvents cfg.opc (requestCommands cfg) := by
  unfold requestEvents requestCommands
  cases cfg.mode <;> rfl

theorem readRequest_eq (p : InOp) : readRequest p = InOp.sendCommands (requestCommands p.s.cfg) p := by
  unfold readRequest requestCommands
  cases p.s.cfg.mode <;> rfl

/-- R127 (c): a frame that fails fails at every time. -/
theorem parseFrame_error_at_time {now : Time} {b : List Byte} {e : Err} (h : parseFrame now b = .error e)
    (now' : Time) : parseFrame now' b = .error e := by
  rw [parseFrame_at_time now now' b, h]
  rfl

/-- R167: an answer of `Recv` is a valid frame, at whatever time it is parsed, or it fails the attempt. -/
theorem attemptError_cases (a : RxAnswer) :
    (∃ b, a = .bytes b ∧ attemptError a = none ∧ ∀ now, ∃ r, parseFrame now b.val = .ok r) ∨
    ∃ e, attemptError a = some e := by
  cases a with
  | timeoutError => exact .inr ⟨_, rfl⟩
  | ioError => exact .inr ⟨_, rfl⟩
  | bytes b =>
    cases parsed : parseFrame 0 b.val with
    | ok r =>
      obtain ⟨valid, -⟩ := parseFrame_eq_ok_iff.mp parsed
      exact .inl ⟨b, rfl, by simp only [attemptError, parsed], valid.parseFrame_ok⟩
    | error e => exact .inr ⟨e, by simp only [attemptError, parsed]⟩

/-- R167: the outcome of an attempt that receives a frame is its parse. -/
theorem attemptOutcome_of_bytes {s : State} {b : Frame32} (now : Time) (answer : s.rxAnswer s.rxCalls = .bytes b) :
    attemptOutcome now s.recv.1 s.recv.2 = parseFrame now b.val := by
  have received : s.recv.1 = .bytes b := answer
  have buffered := State.recv_fb_bytes received
  rw [received, attemptOutcome, buffered]

/-- R167: the outcome of an attempt that fails is the error of the answer. -/
theorem attemptOutcome_of_error {s : State} {e : Err} (now : Time)
    (failed : attemptError (s.rxAnswer s.rxCalls) = some e) :
    attemptOutcome now s.recv.1 s.recv.2 = .error e := by
  cases answer : s.rxAnswer s.rxCalls with
  | timeoutError =>
    rw [answer] at failed
    rw [show s.recv.1 = .timeoutError from answer]
    exact congrArg _ (Option.some.inj failed)
  | ioError =>
    rw [answer] at failed
    rw [show s.recv.1 = .ioError from answer]
    exact congrArg _ (Option.some.inj failed)
  | bytes b =>
    rw [attemptOutcome_of_bytes now answer]
    cases parsed : parseFrame 0 b.val with
    | ok r => simp only [answer, attemptError, parsed, reduceCtorEq] at failed
    | error e' =>
      simp only [answer, attemptError, parsed, Option.some.injEq] at failed
      exact parseFrame_error_at_time (failed ▸ parsed) now

theorem tickSampling_of_ok {s : State} {now : Time} {r : Reading}
    (outcome : attemptOutcome now s.recv.1 s.recv.2 = .ok r) : tickSampling now s = sampleDone now r s.recv.2 := by
  simp only [tickSampling, outcome]

theorem tickSampling_of_error {s : State} {now : Time} {e : Err}
    (outcome : attemptOutcome now s.recv.1 s.recv.2 = .error e) : tickSampling now s = attemptFailed e s.recv.2 := by
  simp only [tickSampling, outcome]

/-- The state after the edge into Sampling (R165, R166). -/
def State.warmed (s : State) : State :=
  { s with st := .sampling, retry := 0,
           txb := txbAfter s.cfg.opc (requestCommands s.cfg) s.txb,
           history := s.history ++ requestEvents s.cfg,
           outCalls := s.outCalls + (requestCommands s.cfg).length,
           result := .tick .warmed none (s.outFailed (requestCommands s.cfg).length) none }

/-- The state after an attempt that receives the valid frame `b` with the Reading `r` (R168). -/
def State.sampled (now : Time) (b : Frame32) (r : Reading) (s : State) : State :=
  { s with st := .dormant, lsa := now, retry := 0,
           fb := Memory.fill b.val, txb := Memory.fill (commandFrame s.cfg.opc .sleep),
           history := s.history ++ [.rx 32 s.cfg.rxDeadline (.bytes b), .record r s.cfg.label,
                                    .tx (commandFrame s.cfg.opc .sleep)],
           outCalls := s.outCalls + 2, rxCalls := s.rxCalls + 1,
           result := .tick .reading none (s.outFailed 2) (some r) }

/-- The state after an attempt that fails with `e`, whether it is retried or exhausts the retries (R169 to R171). -/
def State.attempted (e : Err) (res : Res) (st : St) (retry : BitVec 8) (s : State) : State :=
  { s with st := st, retry := retry,
           fb := fbAfter (s.rxAnswer s.rxCalls) s.fb,
           history := s.history ++ failedAttemptEvents s.cfg (s.rxAnswer s.rxCalls) e,
           outCalls := s.outCalls + discards e, rxCalls := s.rxCalls + 1,
           result := .tick res (some e) (s.outFailed (discards e)) none }

theorem enterSampling_eq (s : State) : enterSampling s = s.warmed := by
  rw [State.warmed, requestEvents_eq]
  simp [enterSampling, readRequest_eq, InOp.sendCommands_eq, State.start]

variable {s : State} {now : Time}

theorem exec_tick_of_gWarm (hst : s.st = .warmingUp) (hg : gWarm s now = true) :
    exec (.tick now) s = .next s.warmed := by
  rw [exec, execTick_warmingUp hst, if_pos hg, enterSampling_eq]

theorem exec_tick_of_not_gWarm (hst : s.st = .warmingUp) (hg : ¬ gWarm s now = true) :
    exec (.tick now) s = .next s.idle := by
  rw [exec, execTick_warmingUp hst, if_neg hg]

theorem exec_tick_of_frame {b : Frame32} {r : Reading} (hst : s.st = .sampling)
    (answer : s.rxAnswer s.rxCalls = .bytes b) (parsed : parseFrame now b.val = .ok r) :
    exec (.tick now) s = .next (s.sampled now b r) := by
  have outcome := (attemptOutcome_of_bytes now answer).trans parsed
  rw [exec, execTick_sampling hst, tickSampling_of_ok outcome, sampleDone_eq, State.recv_eq, answer]
  simp only [List.append_assoc]
  rfl

theorem exec_tick_of_error_retry {e : Err} (hst : s.st = .sampling)
    (failed : attemptError (s.rxAnswer s.rxCalls) = some e) (left : s.retry.toNat < s.cfg.retryMax.toNat) :
    exec (.tick now) s = .next (s.attempted e .retrying .sampling (s.retry + 1)) := by
  have outcome := attemptOutcome_of_error now failed
  have retries_left : retriesLeft s.recv.2 = true := by
    rw [State.recv_eq]
    exact decide_eq_true left
  rw [exec, execTick_sampling hst, tickSampling_of_error outcome, attemptFailed_retry retries_left, State.recv_eq]
  simp only [List.append_assoc, hst]
  rfl

theorem exec_tick_of_error_exhausted {e : Err} (hst : s.st = .sampling)
    (failed : attemptError (s.rxAnswer s.rxCalls) = some e) (none_left : ¬ s.retry.toNat < s.cfg.retryMax.toNat) :
    exec (.tick now) s = .next (s.attempted e .failed .dormant 0) := by
  have outcome := attemptOutcome_of_error now failed
  have no_retries : retriesLeft s.recv.2 = false := by
    rw [State.recv_eq]
    exact decide_eq_false none_left
  rw [exec, execTick_sampling hst, tickSampling_of_error outcome, attemptFailed_exhausted no_retries, State.recv_eq]
  simp only [List.append_assoc]
  rfl

end Sys2Proof.Machine
end

section
/-! PROOFS. What an instruction can do, said once: a TICK takes one of six moves, RESET gives every register its reset
value, and any other instruction fills at most a buffer and the result ports (R27, R160, R192, R230). -/

namespace Sys2Proof.Machine

open Sys2Proof

/-- The moves of a TICK, each under its condition (R160, R192). -/
inductive TickMove (now : Time) (s : State) : State → Prop
  | idle : TickMove now s s.idle
  | started (hst : s.st = .dormant) (hg : gStart s now = true) : TickMove now s (startCycle now s)
  | warmed (hst : s.st = .warmingUp) (hg : gWarm s now = true) : TickMove now s s.warmed
  | sampled {b : Frame32} {r : Reading} (hst : s.st = .sampling) (answer : s.rxAnswer s.rxCalls = .bytes b)
      (parsed : parseFrame now b.val = .ok r) : TickMove now s (s.sampled now b r)
  | retried {e : Err} (hst : s.st = .sampling) (failed : attemptError (s.rxAnswer s.rxCalls) = some e)
      (left : s.retry.toNat < s.cfg.retryMax.toNat) :
      TickMove now s (s.attempted e .retrying .sampling (s.retry + 1))
  | exhausted {e : Err} (hst : s.st = .sampling) (failed : attemptError (s.rxAnswer s.rxCalls) = some e)
      (none_left : ¬ s.retry.toNat < s.cfg.retryMax.toNat) :
      TickMove now s (s.attempted e .failed .dormant 0)

/-- What an operation other than TICK and RESET does: it returns a result, and may fill one buffer (R100, R120). -/
inductive PortsMove (s : State) : State → Prop
  | returned (r : Result) : PortsMove s (s.deliver r)
  | received {b : List Byte} (hlen : b.length = 32) (r : Result) :
      PortsMove s { s with fb := Memory.fill b, result := r }
  | built (c : Command) : PortsMove s (s.buildCommand c)

/-- The state RESET leaves (R33, R230). -/
def State.afterReset (now0 : Time) (s : State) : State :=
  { s with st := .dormant, lsa := resetLsa s.cfg.mode now0, lto := 0, retry := 0,
           history := txEvents s.cfg.opc s.cfg.initSeq, fb := [],
           txb := txbAfter s.cfg.opc s.cfg.initSeq [],
           outCalls := s.outCalls + s.cfg.initSeq.length, result := .none }

theorem exec_reset (now0 : Time) (s : State) : exec (.reset now0) s = .next (s.afterReset now0) :=
  execReset_eq now0 s

theorem eq_afterReset {s t : State} {now0 : Time} (h : exec (.reset now0) s = .next t) : t = s.afterReset now0 :=
  Host.Outcome.next.inj (h.symm.trans (exec_reset now0 s))

/-- R160: in each state of the scheduler its guard or the outcome of its attempt selects the move. -/
theorem exists_tickMove (now : Time) (s : State) : ∃ t, exec (.tick now) s = .next t ∧ TickMove now s t := by
  cases hst : s.st with
  | dormant =>
    by_cases hg : gStart s now = true
    · exact ⟨_, exec_tick_of_gStart hst hg, .started hst hg⟩
    · exact ⟨_, exec_tick_of_not_gStart hst hg, .idle⟩
  | warmingUp =>
    by_cases hg : gWarm s now = true
    · exact ⟨_, exec_tick_of_gWarm hst hg, .warmed hst hg⟩
    · exact ⟨_, exec_tick_of_not_gWarm hst hg, .idle⟩
  | sampling =>
    obtain ⟨b, answer, -, valid⟩ | ⟨e, failed⟩ := attemptError_cases (s.rxAnswer s.rxCalls)
    · obtain ⟨r, parsed⟩ := valid now
      exact ⟨_, exec_tick_of_frame hst answer parsed, .sampled hst answer parsed⟩
    · by_cases left : s.retry.toNat < s.cfg.retryMax.toNat
      · exact ⟨_, exec_tick_of_error_retry hst failed left, .retried hst failed left⟩
      · exact ⟨_, exec_tick_of_error_exhausted hst failed left, .exhausted hst failed left⟩

theorem tickMove_of_exec {s t : State} {now : Time} (h : exec (.tick now) s = .next t) : TickMove now s t := by
  obtain ⟨t', answered, move⟩ := exists_tickMove now s
  obtain rfl := Host.Outcome.next.inj (answered.symm.trans h)
  exact move

theorem parseBytes_portsMove (now : Time) (b : List Byte) (s : State) : PortsMove s (parseBytes now b s) := by
  rw [parseBytes_eq]
  split
  next hlen => exact .received hlen _
  next => exact .returned _

theorem exec_ofCommand_portsMove {c : Command} {s t : State} (h : exec (.ofCommand c) s = .next t) :
    PortsMove s t := by
  obtain rfl := Host.Outcome.next.inj ((exec_ofCommand c s).symm.trans h)
  exact .built c

theorem exec_encode_portsMove {cmd : BitVec 3} {s t : State} (h : exec (.encode cmd) s = .next t) :
    PortsMove s t := by
  cases selected : Command.ofCode cmd with
  | some c =>
    obtain rfl := Host.Outcome.next.inj ((exec_encode_of_command selected s).symm.trans h)
    exact .built c
  | none =>
    obtain rfl := Host.Outcome.next.inj ((exec_encode_of_no_command selected s).symm.trans h)
    exact .returned _

/-- An instruction is a TICK with one of its moves, a RESET, or it reaches the ports only. -/
theorem exec_cases {i : Instr} {s t : State} (h : exec i s = .next t) :
    (∃ now, i = .tick now ∧ TickMove now s t) ∨ (∃ now0, i = .reset now0 ∧ t = s.afterReset now0) ∨
      PortsMove s t := by
  cases i with
  | sleep => exact .inr (.inr (exec_ofCommand_portsMove (c := .sleep) h))
  | wakeUp => exact .inr (.inr (exec_ofCommand_portsMove (c := .wakeUp) h))
  | active => exact .inr (.inr (exec_ofCommand_portsMove (c := .activeMode) h))
  | passive => exact .inr (.inr (exec_ofCommand_portsMove (c := .passiveMode) h))
  | read => exact .inr (.inr (exec_ofCommand_portsMove (c := .readPassiveRequest) h))
  | data now body =>
    obtain rfl := Host.Outcome.next.inj ((exec_data now body s).symm.trans h)
    exact .inr (.inr (parseBytes_portsMove now _ s))
  | nop =>
    obtain rfl : s.deliver .none = t := Host.Outcome.next.inj h
    exact .inr (.inr (.returned .none))
  | tick now => exact .inl ⟨now, rfl, tickMove_of_exec h⟩
  | parse now b =>
    obtain rfl := Host.Outcome.next.inj ((exec_parse now b s).symm.trans h)
    exact .inr (.inr (parseBytes_portsMove now b s))
  | encode cmd => exact .inr (.inr (exec_encode_portsMove h))
  | reset now0 => exact .inr (.inl ⟨now0, rfl, eq_afterReset h⟩)

/-- R27: an operation other than TICK and RESET changes no register, no configuration and no event. -/
theorem PortsMove.eq {s t : State} (move : PortsMove s t) :
    t = { s with fb := t.fb, txb := t.txb, result := t.result } := by
  cases move <;> rfl

/-- R192: a TICK stays or takes one of four edges. -/
theorem TickMove.edges {now : Time} {s t : State} (move : TickMove now s t) :
    t.st = s.st ∨
    (s.st = .dormant ∧ t.st = .warmingUp ∧ gStart s now = true) ∨
    (s.st = .warmingUp ∧ t.st = .sampling ∧ gWarm s now = true) ∨
    (s.st = .sampling ∧ t.st = .dormant ∧ attemptError (s.rxAnswer s.rxCalls) = none) ∨
    (s.st = .sampling ∧ t.st = .dormant ∧ attemptError (s.rxAnswer s.rxCalls) ≠ none ∧
      s.cfg.retryMax.toNat ≤ s.retry.toNat) := by
  cases move with
  | idle => exact .inl rfl
  | started hst hg => exact .inr (.inl ⟨hst, rfl, hg⟩)
  | warmed hst hg => exact .inr (.inr (.inl ⟨hst, rfl, hg⟩))
  | sampled hst answer parsed =>
    obtain ⟨_, -, no_error, -⟩ | ⟨e, failed⟩ := attemptError_cases (s.rxAnswer s.rxCalls)
    · exact .inr (.inr (.inr (.inl ⟨hst, rfl, no_error⟩)))
    · cases (attemptOutcome_of_error now failed).symm.trans ((attemptOutcome_of_bytes now answer).trans parsed)
  | retried hst failed left => exact .inl hst.symm
  | exhausted hst failed none_left =>
    exact .inr (.inr (.inr (.inr ⟨hst, rfl, by simp [failed], not_lt.mp none_left⟩)))

/-- R165: the move into Sampling comes from WarmingUp, after more than `WD`, and keeps the turn-on. -/
theorem TickMove.of_enters_sampling {now : Time} {s t : State} (move : TickMove now s t) (before : s.st ≠ .sampling)
    (after : t.st = .sampling) :
    s.st = .warmingUp ∧ s.lto.toNat + s.cfg.wd.toNat < now.toNat ∧ t.lto = s.lto := by
  cases move with
  | idle => exact absurd after before
  | started hst hg => cases after
  | warmed hst hg =>
    have past_warm_up := ((gWarm_iff s now).mp hg).1
    exact ⟨hst, by omega, rfl⟩
  | sampled hst answer parsed => cases after
  | retried hst failed left => exact absurd hst before
  | exhausted hst failed none_left => cases after

/-- R163: the move into WarmingUp stores the time as the turn-on. -/
theorem TickMove.of_enters_warmingUp {now : Time} {s t : State} (move : TickMove now s t)
    (before : s.st ≠ .warmingUp) (after : t.st = .warmingUp) : t.lto = now := by
  cases move with
  | idle => exact absurd after before
  | started hst hg => rfl
  | warmed hst hg => cases after
  | sampled hst answer parsed => cases after
  | retried hst failed left => cases after
  | exhausted hst failed none_left => cases after

theorem TickMove.lto_of_stays_warmingUp {now : Time} {s t : State} (move : TickMove now s t)
    (before : s.st = .warmingUp) : t.lto = s.lto := by
  cases move with
  | started hst hg => cases hst.symm.trans before
  | idle | warmed _ _ | sampled _ _ _ | retried _ _ _ | exhausted _ _ _ => rfl

/-- R171: only exhaustion returns FAILED. -/
theorem TickMove.of_failed {now : Time} {s t : State} (move : TickMove now s t) {err : Option Err} {io : Bool}
    {rd : Option Reading} (failed : t.result = .tick .failed err io rd) :
    s.st = .sampling ∧ t.st = .dormant ∧ t.lsa = s.lsa ∧ t.lto = s.lto := by
  cases move with
  | idle => cases failed
  | started hst hg => cases failed
  | warmed hst hg => cases failed
  | sampled hst answer parsed => cases failed
  | retried hst attempt left => cases failed
  | exhausted hst attempt none_left => exact ⟨hst, rfl, rfl, rfl⟩

end Sys2Proof.Machine
end

section
/-! PROOFS. The statements of 43_scheduler.md on a single TICK, and which operations change a register. -/

namespace Sys2Proof.Proofs

open Sys2Proof Sys2Proof.Machine

/-- Settles O30: the guard as two comparisons; the wake commands by what a list of `Send`s does. -/
theorem tickInDormant : Obligations.TickInDormant := by
  intro s now hst
  rw [← gStart_iff]
  refine ⟨fun hg => ?_, exec_tick_of_not_gStart hst⟩
  rw [exec_tick_of_gStart hst hg, startCycle_eq]

/-- Settles O31: the guard as two comparisons; the commands of the edge in each mode. -/
theorem tickInWarmingUp : Obligations.TickInWarmingUp := by
  intro s now hst
  rw [← gWarm_iff]
  refine ⟨fun hg => ⟨fun hmode => ?_, fun hmode => ?_⟩, exec_tick_of_not_gWarm hst⟩
  · rw [exec_tick_of_gWarm hst hg, ← enterSampling_eq, enterSampling_passive hmode]
  · rw [exec_tick_of_gWarm hst hg, ← enterSampling_eq, enterSampling_active hmode]

/-- Settles O32: the outcome of the attempt is the parse of the received frame, whose Reading carries the time. -/
theorem tickInSamplingSucceeds : Obligations.TickInSamplingSucceeds := by
  intro s now b r hst answer parsed
  obtain ⟨-, rfl⟩ := parseFrame_eq_ok_iff.mp parsed
  exact ⟨rfl, exec_tick_of_frame hst answer parsed⟩

/-- Settles O33: the outcome of the attempt is the error of the answer, and the retries left decide. -/
theorem tickInSamplingFails : Obligations.TickInSamplingFails := by
  intro s now e hst failed
  refine ⟨fun left => ?_, exec_tick_of_error_exhausted hst failed⟩
  rw [exec_tick_of_error_retry hst failed left, ← hst]
  rfl

/-- Settles O34: move by move. -/
theorem tickTakesAtMostOneEdge : Obligations.TickTakesAtMostOneEdge :=
  fun _ _ _ hexec => (tickMove_of_exec hexec).edges

/-- Settles O35: of the instructions a TICK alone enters Sampling or WarmingUp, and each by one move. -/
theorem samplingOnlyAfterWarmUp : Obligations.SamplingOnlyAfterWarmUp := by
  intro i s t hexec
  obtain ⟨now, rfl, move⟩ | ⟨now0, rfl, rfl⟩ | move := exec_cases hexec
  · refine ⟨fun before after => ?_, fun before after => ⟨now, rfl, move.of_enters_warmingUp before after⟩,
      fun before _ => move.lto_of_stays_warmingUp before⟩
    obtain ⟨from_warmingUp, past_warm_up, lto_eq⟩ := move.of_enters_sampling before after
    exact ⟨from_warmingUp, now, rfl, past_warm_up, lto_eq⟩
  · exact ⟨fun _ after => (by cases after), fun _ after => (by cases after), fun _ after => (by cases after)⟩
  · have st_eq : t.st = s.st := by rw [move.eq]
    have lto_eq : t.lto = s.lto := by rw [move.eq]
    exact ⟨fun before after => absurd (st_eq ▸ after) before, fun before after => absurd (st_eq ▸ after) before,
      fun _ _ => lto_eq⟩

/-- Settles O36: an instruction that is neither TICK nor RESET reaches the ports only. -/
theorem onlyTickAndResetChangeRegisters : Obligations.OnlyTickAndResetChangeRegisters := by
  intro i s t hexec
  obtain ⟨now, is_tick, -⟩ | ⟨now0, is_reset, -⟩ | move := exec_cases hexec
  · exact .inl ⟨now, is_tick⟩
  · exact .inr (.inl ⟨now0, is_reset⟩)
  · exact .inr (.inr move.eq)

/-- Settles O39: exhaustion goes to Dormant from Sampling, where the invariant puts the turn-on after the last sample. -/
theorem failedCycleEndsInDeadEnd : Obligations.FailedCycleEndsInDeadEnd := by
  rintro s t now ⟨-, -, turn_on_later⟩ hexec ⟨err, io, rd, failed⟩
  obtain ⟨hst, st_eq, lsa_eq, lto_eq⟩ := (tickMove_of_exec hexec).of_failed failed
  refine ⟨st_eq, ?_⟩
  rw [lsa_eq, lto_eq]
  exact turn_on_later (by simp [hst])

end Sys2Proof.Proofs
end

section
/-! PROOFS. What a step can do, and what every step keeps: a predicate that taking a request, an operation at the ports
and every move of a TICK keep is kept by each step in which the reset input is not presented, and by every step if RESET
keeps it too. -/

namespace Sys2Proof.Machine

open Sys2Proof

/-- A step does nothing, or takes the first request and then runs an operation at the ports, a TICK, or a RESET, for which
the reset input was presented. (A byte sequence that is no frame reaches the ports only.) -/
theorem step_moves {s t : State} (h : step s = .next t) :
    t = s ∨ ∃ r rest, s.pending = r :: rest ∧
      (PortsMove { s with pending := rest } t ∨
       (∃ now, TickMove now { s with pending := rest } t) ∨
       (∃ p now0, r = .host p ∧ p.rst = true ∧ t = State.afterReset now0 { s with pending := rest })) := by
  obtain ⟨-, unchanged⟩ | ⟨r, rest, hp, ⟨i, decoded, hexec⟩ | ⟨e, -, rfl⟩⟩ := step_cases h
  · exact .inl unchanged
  · refine .inr ⟨r, rest, hp, ?_⟩
    obtain ⟨now, -, move⟩ | ⟨now0, rfl, after⟩ | move := exec_cases hexec
    · exact .inr (.inl ⟨now, move⟩)
    · obtain ⟨p, is_host, hrst⟩ := decode_reset decoded
      exact .inr (.inr ⟨p, now0, is_host, hrst, after⟩)
    · exact .inl move
  · exact .inr ⟨r, rest, hp, .inl (.returned _)⟩

/-- What each part of a step but RESET keeps. -/
structure KeptByMoves (P : State → Prop) : Prop where
  take : ∀ {s : State} (rest : List Request), P s → P { s with pending := rest }
  ports : ∀ {s t : State}, P s → PortsMove s t → P t
  tick : ∀ {s t : State} {now : Time}, P s → TickMove now s t → P t

variable {P : State → Prop} {s t : State}

theorem KeptByMoves.step_or_reset (kept : KeptByMoves P) (hs : P s) (h : step s = .next t) :
    P t ∨ ∃ p rest, s.pending = .host p :: rest ∧ p.rst = true := by
  obtain rfl | ⟨r, rest, hp, move | ⟨now, move⟩ | ⟨p, now0, rfl, hrst, -⟩⟩ := step_moves h
  · exact .inl hs
  · exact .inl (kept.ports (kept.take rest hs) move)
  · exact .inl (kept.tick (kept.take rest hs) move)
  · exact .inr ⟨p, rest, hp, hrst⟩

theorem KeptByMoves.step (kept : KeptByMoves P) (reset : ∀ {s : State} (now0 : Time), P s → P (s.afterReset now0))
    (hs : P s) (h : step s = .next t) : P t := by
  obtain rfl | ⟨r, rest, -, move | ⟨now, move⟩ | ⟨p, now0, -, -, rfl⟩⟩ := step_moves h
  · exact hs
  · exact kept.ports (kept.take rest hs) move
  · exact kept.tick (kept.take rest hs) move
  · exact reset now0 (kept.take rest hs)

end Sys2Proof.Machine
end

section
/-! PROOFS. The registers: the cycle invariant and the bound on the timestamps after RESET and after each move
(R34). -/

namespace Sys2Proof.Machine

open Sys2Proof

theorem cycleInv_afterReset (now0 : Time) (s : State) : (s.afterReset now0).CycleInv :=
  ⟨Nat.zero_le _, fun _ => rfl, fun not_dormant => absurd rfl not_dormant⟩

/-- R161: where `G_START` holds, `now` is later than the last sample. -/
theorem lsa_lt_of_gStart {s : State} {now : Time} (hg : gStart s now = true) : s.lsa.toNat < now.toNat := by
  have past_interval := ((gStart_iff s now).mp hg).1
  omega

/-- R170: below the ceiling, which has 8 bits, the retry counter does not wrap. -/
theorem retry_succ_toNat {s : State} (left : s.retry.toNat < s.cfg.retryMax.toNat) :
    (s.retry + 1).toNat = s.retry.toNat + 1 := by
  bv_omega

theorem cycleInv_tickMove {now : Time} {s t : State} (inv : s.CycleInv) (move : TickMove now s t) : t.CycleInv := by
  obtain ⟨retry_le, retry_zero, turn_on_later⟩ := inv
  cases move with
  | idle => exact ⟨retry_le, retry_zero, turn_on_later⟩
  | started hst hg =>
    have later := lsa_lt_of_gStart hg
    rw [startCycle_eq]
    exact ⟨retry_le, fun _ => retry_zero (by simp [hst]), fun _ => later⟩
  | warmed hst hg => exact ⟨Nat.zero_le _, fun _ => rfl, fun _ => turn_on_later (by simp [hst])⟩
  | sampled hst answer parsed => exact ⟨Nat.zero_le _, fun _ => rfl, fun not_dormant => absurd rfl not_dormant⟩
  | retried hst failed left =>
    exact ⟨(retry_succ_toNat left).trans_le left, fun not_sampling => absurd rfl not_sampling,
      fun _ => turn_on_later (by simp [hst])⟩
  | exhausted hst failed none_left => exact ⟨Nat.zero_le _, fun _ => rfl, fun not_dormant => absurd rfl not_dormant⟩

theorem cycleInv_kept : KeptByMoves State.CycleInv where
  take _ inv := inv
  ports inv move := by cases move <;> exact inv
  tick inv move := cycleInv_tickMove inv move

/-- R33: `LSA` starts at the time RESET is given or at 0. -/
theorem resetLsa_le (m : Mode) (now0 : Time) : (resetLsa m now0).toNat ≤ now0.toNat := by
  cases m with
  | passive => rw [resetLsa_of_passive rfl]
  | active => exact Nat.zero_le _

theorem timesUpTo_afterReset (now0 : Time) (s : State) : (s.afterReset now0).TimesUpTo now0 :=
  ⟨resetLsa_le _ now0, Nat.zero_le _⟩

theorem State.TimesUpTo.mono {s : State} {latest now : Time} (h : s.TimesUpTo latest)
    (later : latest.toNat ≤ now.toNat) : s.TimesUpTo now :=
  ⟨h.1.trans later, h.2.trans later⟩

/-- R34 (e): a move writes the time it is given into a timestamp, or leaves both. -/
theorem timesUpTo_tickMove {now : Time} {s t : State} (h : s.TimesUpTo now) (move : TickMove now s t) :
    t.TimesUpTo now := by
  obtain ⟨lsa_le, lto_le⟩ := h
  cases move with
  | idle => exact ⟨lsa_le, lto_le⟩
  | started hst hg =>
    rw [startCycle_eq]
    exact ⟨lsa_le, le_refl now.toNat⟩
  | warmed hst hg => exact ⟨lsa_le, lto_le⟩
  | sampled hst answer parsed => exact ⟨le_refl now.toNat, lto_le⟩
  | retried hst failed left => exact ⟨lsa_le, lto_le⟩
  | exhausted hst failed none_left => exact ⟨lsa_le, lto_le⟩

theorem timesUpTo_portsMove {latest : Time} {s t : State} (h : s.TimesUpTo latest) (move : PortsMove s t) :
    t.TimesUpTo latest := by
  cases move <;> exact h

end Sys2Proof.Machine
end

section
/-! PROOFS. The buffers: whatever fills one fills it whole (R50, R64). -/

namespace Sys2Proof.Machine

open Sys2Proof

/-- A buffer of `n` offsets in canonical form. -/
def Memory.Fits (n : Nat) (m : Memory) : Prop := Memory.wf m ∧ Memory.within n m

theorem Memory.fits_nil (n : Nat) : Memory.Fits n [] :=
  ⟨List.Pairwise.nil, fun _ hc => absurd hc List.not_mem_nil⟩

theorem Memory.fits_fill {n : Nat} {b : List Byte} (hlen : b.length = n) : Memory.Fits n (Memory.fill b) :=
  ⟨Memory.fill_wf b, hlen ▸ Memory.fill_within b⟩

theorem State.bufferInv_iff {s : State} : s.BufferInv ↔ Memory.Fits 32 s.fb ∧ Memory.Fits 7 s.txb := by
  simp only [State.BufferInv, Memory.Fits, and_assoc]

theorem fits_commandFrame (rom : OpcodeRom) (c : Command) : Memory.Fits 7 (Memory.fill (commandFrame rom c)) :=
  Memory.fits_fill (commandFrame_length rom c)

theorem fits_txbAfter (rom : OpcodeRom) (cs : List Command) {old : Memory} (h : Memory.Fits 7 old) :
    Memory.Fits 7 (txbAfter rom cs old) := by
  induction cs generalizing old with
  | nil => rwa [txbAfter_nil]
  | cons c cs ih =>
    rw [txbAfter_cons]
    exact ih (fits_commandFrame rom c)

theorem fits_fbAfter (a : RxAnswer) {old : Memory} (h : Memory.Fits 32 old) : Memory.Fits 32 (fbAfter a old) := by
  cases a with
  | timeoutError => exact h
  | ioError => exact h
  | bytes b => exact Memory.fits_fill b.property

theorem bufferInv_afterReset (now0 : Time) (s : State) : (s.afterReset now0).BufferInv :=
  State.bufferInv_iff.mpr ⟨Memory.fits_nil 32, fits_txbAfter _ _ (Memory.fits_nil 7)⟩

theorem bufferInv_portsMove {s t : State} (inv : s.BufferInv) (move : PortsMove s t) : t.BufferInv := by
  rw [State.bufferInv_iff] at inv ⊢
  obtain ⟨fb_fits, txb_fits⟩ := inv
  cases move with
  | returned r => exact ⟨fb_fits, txb_fits⟩
  | received hlen r => exact ⟨Memory.fits_fill hlen, txb_fits⟩
  | built c => exact ⟨fb_fits, fits_commandFrame _ c⟩

theorem bufferInv_tickMove {now : Time} {s t : State} (inv : s.BufferInv) (move : TickMove now s t) : t.BufferInv := by
  rw [State.bufferInv_iff] at inv ⊢
  obtain ⟨fb_fits, txb_fits⟩ := inv
  cases move with
  | idle => exact ⟨fb_fits, txb_fits⟩
  | started hst hg =>
    rw [startCycle_eq]
    exact ⟨fb_fits, fits_txbAfter _ _ txb_fits⟩
  | warmed hst hg => exact ⟨fb_fits, fits_txbAfter _ _ txb_fits⟩
  | @sampled b r hst answer parsed => exact ⟨Memory.fits_fill b.property, fits_commandFrame _ .sleep⟩
  | retried hst failed left => exact ⟨fits_fbAfter _ fb_fits, txb_fits⟩
  | exhausted hst failed none_left => exact ⟨fits_fbAfter _ fb_fits, txb_fits⟩

theorem bufferInv_kept : KeptByMoves State.BufferInv where
  take _ inv := inv
  ports inv move := bufferInv_portsMove inv move
  tick inv move := bufferInv_tickMove inv move

end Sys2Proof.Machine
end

section
/-! PROOFS. The history: every move appends events, whatever is sent is a whole command, and a Reading stands between
its frame and SLEEP (R32, R123, R168, R173, R176). -/

namespace Sys2Proof.Machine

open Sys2Proof

/-- The events a TICK can append (R164, R166, R168, R169). -/
inductive TickEvents (cfg : Config) : List Event → Prop
  | none : TickEvents cfg []
  | sends (cs : List Command) : TickEvents cfg (txEvents cfg.opc cs)
  | sample {b : Frame32} {r : Reading} (parsed : parseFrame r.ts b.val = .ok r) :
      TickEvents cfg [.rx 32 cfg.rxDeadline (.bytes b), .record r cfg.label, .tx (commandFrame cfg.opc .sleep)]
  | attempt {a : RxAnswer} {e : Err} (failed : attemptError a = some e) :
      TickEvents cfg (failedAttemptEvents cfg a e)

/-- R32: a TICK only appends to the history. -/
theorem TickMove.history {now : Time} {s t : State} (move : TickMove now s t) :
    ∃ new, TickEvents s.cfg new ∧ t.history = s.history ++ new := by
  cases move with
  | idle => exact ⟨[], .none, (List.append_nil _).symm⟩
  | started hst hg =>
    rw [startCycle_eq]
    exact ⟨_, .sends _, rfl⟩
  | warmed hst hg => exact ⟨_, requestEvents_eq s.cfg ▸ .sends _, rfl⟩
  | sampled hst answer parsed =>
    obtain ⟨-, rfl⟩ := parseFrame_eq_ok_iff.mp parsed
    exact ⟨_, .sample parsed, rfl⟩
  | retried hst failed left => exact ⟨_, .attempt failed, rfl⟩
  | exhausted hst failed none_left => exact ⟨_, .attempt failed, rfl⟩

theorem TickMove.cfg {now : Time} {s t : State} (move : TickMove now s t) : t.cfg = s.cfg := by
  cases move with
  | started hst hg => rw [startCycle_eq]
  | idle | warmed _ _ | sampled _ _ _ | retried _ _ _ | exhausted _ _ _ => rfl

/-- R32: what the history was, with more events after it. -/
theorem history_grows_kept (h : List Event) : KeptByMoves fun s => ∃ new, s.history = h ++ new where
  take _ grown := grown
  ports grown move := by cases move <;> exact grown
  tick grown move := by
    obtain ⟨old, history_eq⟩ := grown
    obtain ⟨new, -, appended⟩ := move.history
    exact ⟨old ++ new, by rw [appended, history_eq, List.append_assoc]⟩

/-- R26: the configuration and the environment's answers, which no part of a step writes. -/
theorem configuration_kept (c : Config) (o : List OutAnswer) (x : List RxAnswer) :
    KeptByMoves fun s => s.cfg = c ∧ s.outScript = o ∧ s.rxScript = x where
  take _ same := same
  ports same move := by cases move <;> exact same
  tick same move := by
    cases move with
    | started hst hg => rw [startCycle_eq]; exact same
    | idle | warmed _ _ | sampled _ _ _ | retried _ _ _ | exhausted _ _ _ => exact same

/-- R173: the bytes sent in some events are whole commands. -/
def SentByEncoder (rom : OpcodeRom) (events : List Event) : Prop :=
  ∀ b, Event.tx b ∈ events → ∃ c, b = commandFrame rom c

theorem State.sendsCommandsOnly_iff {s : State} : s.SendsCommandsOnly ↔ SentByEncoder s.cfg.opc s.history := Iff.rfl

theorem SentByEncoder.append {rom : OpcodeRom} {old new : List Event} (hold : SentByEncoder rom old)
    (hnew : SentByEncoder rom new) : SentByEncoder rom (old ++ new) := fun b hb =>
  (List.mem_append.mp hb).elim (hold b) (hnew b)

theorem sentByEncoder_txEvents (rom : OpcodeRom) (cs : List Command) : SentByEncoder rom (txEvents rom cs) := by
  intro b hb
  obtain ⟨c, -, sent⟩ := List.mem_map.mp hb
  exact ⟨c, (Event.tx.inj sent).symm⟩

/-- R169: a failed attempt sends nothing. -/
theorem tx_not_mem_failedAttemptEvents (cfg : Config) (a : RxAnswer) (e : Err) (b : List Byte) :
    Event.tx b ∉ failedAttemptEvents cfg a e := by
  unfold failedAttemptEvents
  split <;> simp

theorem TickEvents.sentByEncoder {cfg : Config} {new : List Event} (events : TickEvents cfg new) :
    SentByEncoder cfg.opc new := by
  cases events with
  | none => exact fun _ hb => absurd hb List.not_mem_nil
  | sends cs => exact sentByEncoder_txEvents cfg.opc cs
  | sample parsed =>
    intro b hb
    simp only [List.mem_cons, reduceCtorEq, List.not_mem_nil, or_false, false_or, Event.tx.injEq] at hb
    exact ⟨.sleep, hb⟩
  | attempt failed => exact fun b hb => absurd hb (tx_not_mem_failedAttemptEvents cfg _ _ b)

theorem sendsCommandsOnly_kept : KeptByMoves State.SendsCommandsOnly where
  take _ sent := sent
  ports sent move := by cases move <;> exact sent
  tick sent move := by
    obtain ⟨new, events, appended⟩ := move.history
    rw [State.sendsCommandsOnly_iff, move.cfg, appended]
    exact SentByEncoder.append sent events.sentByEncoder

theorem sendsCommandsOnly_afterReset (now0 : Time) (s : State) : (s.afterReset now0).SendsCommandsOnly :=
  sentByEncoder_txEvents s.cfg.opc s.cfg.initSeq

/-- R168, R176: in some events every record follows its frame and is followed by SLEEP. -/
def RecordsFollowFrames (cfg : Config) (events : List Event) : Prop :=
  ∀ pre r l post, events = pre ++ Event.record r l :: post →
    l = cfg.label ∧
    (∃ pre' b, pre = pre' ++ [Event.rx 32 cfg.rxDeadline (.bytes b)] ∧ parseFrame r.ts b.val = .ok r) ∧
    (∃ post', post = Event.tx (commandFrame cfg.opc .sleep) :: post')

theorem State.recordsAreReceivedFrames_iff {s : State} :
    s.RecordsAreReceivedFrames ↔ RecordsFollowFrames s.cfg s.history := Iff.rfl

/-- An event of a list put together from two stands in the one or in the other. -/
theorem append_eq_append_cons_cases {α : Type} {old new pre post : List α} {e : α}
    (h : old ++ new = pre ++ e :: post) :
    (∃ post', old = pre ++ e :: post' ∧ post = post' ++ new) ∨
    (∃ pre', pre = old ++ pre' ∧ new = pre' ++ e :: post) := by
  obtain ⟨pre', pre_eq, new_eq⟩ | ⟨rest, old_eq, rest_eq⟩ := List.append_eq_append_iff.mp h
  · exact .inr ⟨pre', pre_eq, new_eq⟩
  · cases rest with
    | nil => exact .inr ⟨[], by simpa using old_eq.symm, by simpa using rest_eq.symm⟩
    | cons e' post' =>
      rw [List.cons_append, List.cons.injEq] at rest_eq
      obtain ⟨rfl, post_eq⟩ := rest_eq
      exact .inl ⟨post', old_eq, post_eq⟩

theorem RecordsFollowFrames.append {cfg : Config} {old new : List Event} (hold : RecordsFollowFrames cfg old)
    (hnew : RecordsFollowFrames cfg new) : RecordsFollowFrames cfg (old ++ new) := by
  intro pre r l post split
  obtain ⟨post', in_old, rfl⟩ | ⟨pre', rfl, in_new⟩ := append_eq_append_cons_cases split
  · obtain ⟨label, frame, post'', rfl⟩ := hold pre r l post' in_old
    exact ⟨label, frame, post'' ++ new, rfl⟩
  · obtain ⟨label, ⟨pre'', b, rfl, parsed⟩, sleep⟩ := hnew pre' r l post in_new
    exact ⟨label, ⟨old ++ pre'', b, (List.append_assoc _ _ _).symm, parsed⟩, sleep⟩

theorem recordsFollowFrames_of_no_record {cfg : Config} {events : List Event}
    (no_record : ∀ r l, Event.record r l ∉ events) : RecordsFollowFrames cfg events := by
  rintro pre r l post rfl
  exact absurd (List.mem_append_right pre List.mem_cons_self) (no_record r l)

/-- R164, R173: a `Send` is no record. -/
theorem recordsFollowFrames_txEvents (cfg : Config) (cs : List Command) :
    RecordsFollowFrames cfg (txEvents cfg.opc cs) :=
  recordsFollowFrames_of_no_record fun r l hmem => by
    obtain ⟨c, -, sent⟩ := List.mem_map.mp hmem
    cases sent

theorem recordsFollowFrames_sample {cfg : Config} {b : Frame32} {r : Reading}
    (parsed : parseFrame r.ts b.val = .ok r) :
    RecordsFollowFrames cfg
      [.rx 32 cfg.rxDeadline (.bytes b), .record r cfg.label, .tx (commandFrame cfg.opc .sleep)] := by
  intro pre r' l post split
  match pre, split with
  | [], split => cases split
  | [_], split =>
    cases split
    exact ⟨rfl, ⟨[], b, rfl, parsed⟩, [], rfl⟩
  | [_, _], split => cases split
  | _ :: _ :: _ :: pre', split => simp at split

theorem TickEvents.recordsFollowFrames {cfg : Config} {new : List Event} (events : TickEvents cfg new) :
    RecordsFollowFrames cfg new := by
  cases events with
  | none => exact recordsFollowFrames_of_no_record fun _ _ hmem => absurd hmem List.not_mem_nil
  | sends cs => exact recordsFollowFrames_txEvents cfg cs
  | sample parsed => exact recordsFollowFrames_sample parsed
  | attempt failed =>
    refine recordsFollowFrames_of_no_record fun r l hmem => ?_
    unfold failedAttemptEvents at hmem
    split at hmem <;> simp at hmem

theorem recordsAreReceivedFrames_kept : KeptByMoves State.RecordsAreReceivedFrames where
  take _ recorded := recorded
  ports recorded move := by cases move <;> exact recorded
  tick recorded move := by
    obtain ⟨new, events, appended⟩ := move.history
    rw [State.recordsAreReceivedFrames_iff, move.cfg, appended]
    exact RecordsFollowFrames.append recorded events.recordsFollowFrames

theorem recordsAreReceivedFrames_afterReset (now0 : Time) (s : State) :
    (s.afterReset now0).RecordsAreReceivedFrames :=
  recordsFollowFrames_txEvents s.cfg s.cfg.initSeq

end Sys2Proof.Machine
end

section
/-! PROOFS. The order of a cycle's events (R179). -/

namespace Sys2Proof.Machine

open Sys2Proof

/-- The failed attempts of a cycle so far, one group of events for each. -/
def FailedAttempts (cfg : Config) (groups : List (List Event)) : Prop :=
  ∀ g ∈ groups, ∃ a e, attemptError a = some e ∧ g = failedAttemptEvents cfg a e

/-- The history of a cycle in Sampling after `n` failed attempts. -/
def SamplingHistory (cfg : Config) (n : Nat) (history : List Event) : Prop :=
  ∃ pre groups, history = pre ++ txEvents cfg.opc cfg.wakeSeq ++ requestEvents cfg ++ List.flatten groups ∧
    groups.length = n ∧ FailedAttempts cfg groups

variable {s : State}

theorem State.cycleHistory_of_dormant (hst : s.st = .dormant) : s.CycleHistory := by
  simp only [State.CycleHistory, hst]

theorem State.cycleHistory_iff_of_warmingUp (hst : s.st = .warmingUp) :
    s.CycleHistory ↔ ∃ pre, s.history = pre ++ txEvents s.cfg.opc s.cfg.wakeSeq := by
  simp only [State.CycleHistory, hst]

theorem State.cycleHistory_iff_of_sampling (hst : s.st = .sampling) :
    s.CycleHistory ↔ SamplingHistory s.cfg s.retry.toNat s.history := by
  simp only [State.CycleHistory, hst, SamplingHistory, FailedAttempts]

/-- R165: at the edge into Sampling no attempt has failed. -/
theorem samplingHistory_zero (cfg : Config) (pre : List Event) :
    SamplingHistory cfg 0 (pre ++ txEvents cfg.opc cfg.wakeSeq ++ requestEvents cfg) :=
  ⟨pre, [], (List.append_nil _).symm, rfl, fun _ hg => absurd hg List.not_mem_nil⟩

/-- R170: a failed attempt adds its group of events. -/
theorem SamplingHistory.succ {cfg : Config} {n : Nat} {history : List Event} {a : RxAnswer} {e : Err}
    (sampling : SamplingHistory cfg n history) (failed : attemptError a = some e) :
    SamplingHistory cfg (n + 1) (history ++ failedAttemptEvents cfg a e) := by
  obtain ⟨pre, groups, rfl, rfl, attempts⟩ := sampling
  refine ⟨pre, groups ++ [failedAttemptEvents cfg a e], ?_, by simp, fun g hg => ?_⟩
  · rw [List.flatten_concat, List.append_assoc]
  · obtain earlier | rfl := List.mem_append.mp hg |>.imp id List.mem_singleton.mp
    · exact attempts g earlier
    · exact ⟨a, e, failed, rfl⟩

theorem cycleHistory_tickMove {now : Time} {s t : State} (ordered : s.CycleHistory) (move : TickMove now s t) :
    t.CycleHistory := by
  cases move with
  | idle => exact ordered
  | started hst hg =>
    rw [startCycle_eq, State.cycleHistory_iff_of_warmingUp rfl]
    exact ⟨s.history, rfl⟩
  | warmed hst hg =>
    obtain ⟨pre, history_eq⟩ := (State.cycleHistory_iff_of_warmingUp hst).mp ordered
    rw [State.cycleHistory_iff_of_sampling rfl]
    change SamplingHistory s.cfg 0 (s.history ++ requestEvents s.cfg)
    rw [history_eq]
    exact samplingHistory_zero s.cfg pre
  | sampled hst answer parsed => exact State.cycleHistory_of_dormant rfl
  | @retried e hst failed left =>
    have sampling := (State.cycleHistory_iff_of_sampling hst).mp ordered
    rw [State.cycleHistory_iff_of_sampling rfl]
    change SamplingHistory s.cfg (s.retry + 1).toNat
      (s.history ++ failedAttemptEvents s.cfg (s.rxAnswer s.rxCalls) e)
    rw [retry_succ_toNat left]
    exact sampling.succ failed
  | exhausted hst failed none_left => exact State.cycleHistory_of_dormant rfl

theorem cycleHistory_kept : KeptByMoves State.CycleHistory where
  take _ ordered := ordered
  ports ordered move := by cases move <;> exact ordered
  tick ordered move := cycleHistory_tickMove ordered move

theorem cycleHistory_afterReset (now0 : Time) (s : State) : (s.afterReset now0).CycleHistory :=
  State.cycleHistory_of_dormant rfl

end Sys2Proof.Machine
end

section
/-! PROOFS. The statements of 10_state.md, and those on the history. -/

namespace Sys2Proof.Proofs

open Sys2Proof Sys2Proof.Machine

/-- Settles O45: it holds after RESET, and each move of a TICK keeps it. -/
theorem stepKeepsCycleInvariant : Obligations.StepKeepsCycleInvariant :=
  fun _ _ inv hstep => cycleInv_kept.step (fun now0 _ => cycleInv_afterReset now0 _) inv hstep

/-- Settles O46: TICK and RESET write no time but the one they are given; the other operations write none. -/
theorem timestampsNeverExceedLatestTime : Obligations.TimestampsNeverExceedLatestTime := by
  intro i s t latest now bounded hexec
  obtain ⟨now', rfl, move⟩ | ⟨now0, rfl, rfl⟩ | move := exec_cases hexec
  · refine ⟨fun given later => ?_, fun other => absurd rfl (other now').1⟩
    obtain rfl : now' = now := by simpa using given
    exact timesUpTo_tickMove (bounded.mono later) move
  · refine ⟨fun given _ => ?_, fun other => absurd rfl (other now0).2⟩
    obtain rfl : now0 = now := by simpa using given
    exact timesUpTo_afterReset now0 s
  · exact ⟨fun _ later => (timesUpTo_portsMove bounded move).mono later, fun _ => timesUpTo_portsMove bounded move⟩

/-- Settles O47: a buffer is filled whole, with 32 bytes or with a command's seven, or left alone. -/
theorem stepKeepsBuffers : Obligations.StepKeepsBuffers :=
  fun _ _ inv hstep => bufferInv_kept.step (fun now0 _ => bufferInv_afterReset now0 _) inv hstep

/-- Settles O48: no part of a step writes them, RESET neither. -/
theorem stepKeepsConfiguration : Obligations.StepKeepsConfiguration :=
  fun s _ hstep => (configuration_kept s.cfg s.outScript s.rxScript).step (fun _ same => same) ⟨rfl, rfl, rfl⟩ hstep

/-- Settles O49: every move of a TICK appends; RESET, which does not, needs the reset input. -/
theorem historyOnlyGrows : Obligations.HistoryOnlyGrows :=
  fun s _ hstep => (history_grows_kept s.history).step_or_reset ⟨[], (List.append_nil _).symm⟩ hstep

/-- Settles O50: what a TICK appends to the history sends commands only, and so does `INIT_SEQ`. -/
theorem stepSendsCommandsOnly : Obligations.StepSendsCommandsOnly :=
  fun _ _ sent hstep => sendsCommandsOnly_kept.step (fun now0 _ => sendsCommandsOnly_afterReset now0 _) sent hstep

/-- Settles O51: a record is appended together with its frame and SLEEP, and later events come after all three. -/
theorem stepRecordsReceivedFramesOnly : Obligations.StepRecordsReceivedFramesOnly :=
  fun _ _ recorded hstep =>
    recordsAreReceivedFrames_kept.step (fun now0 _ => recordsAreReceivedFrames_afterReset now0 _) recorded hstep

/-- Settles O52: each move appends the events that come next in the order, or ends the cycle. -/
theorem stepKeepsCycleOrder : Obligations.StepKeepsCycleOrder :=
  fun _ _ ordered hstep => cycleHistory_kept.step (fun now0 _ => cycleHistory_afterReset now0 _) ordered hstep

end Sys2Proof.Proofs
end

section
/-! PROOFS. Runs of several steps: a run by its first step and by its last, the requests a step leaves, and runs that
answer (R57, R78). -/

namespace Sys2Proof.Machine

open Sys2Proof

section Runs

variable {M : Host.Core} {n : Nat} {s t u : M.State}

theorem run_succ_of_step (h : M.step s = .next u) : M.run (n + 1) s = M.run n u := by
  simp only [Host.Core.run, h]

theorem exists_step_of_run_succ (h : M.run (n + 1) s = .next t) : ∃ u, M.step s = .next u ∧ M.run n u = .next t := by
  cases stepped : M.step s with
  | next u => exact ⟨u, rfl, (run_succ_of_step stepped).symm.trans h⟩
  | fault r => simp only [Host.Core.run, stepped, reduceCtorEq] at h
  | refused r => simp only [Host.Core.run, stepped, reduceCtorEq] at h

theorem run_succ_of_run (h : M.run n s = .next t) : M.run (n + 1) s = M.step t := by
  induction n generalizing s with
  | zero =>
    obtain rfl : s = t := Host.Outcome.next.inj h
    cases stepped : M.step s <;> simp only [Host.Core.run, stepped]
  | succ n ih =>
    obtain ⟨u, stepped, ran⟩ := exists_step_of_run_succ h
    rw [run_succ_of_step stepped, ih ran]

end Runs

variable {s t : State}

/-- R57: a step takes the first request and leaves the others. -/
theorem step_pending (h : step s = .next t) : t.pending = s.pending.tail := by
  obtain ⟨hp, rfl⟩ | ⟨r, rest, hp, ⟨i, -, hexec⟩ | ⟨e, -, rfl⟩⟩ := step_cases h
  · rw [hp, List.tail_nil]
  · rw [hp, List.tail_cons]
    obtain ⟨now, -, move⟩ | ⟨now0, -, rfl⟩ | move := exec_cases hexec
    · cases move with
      | started hst hg => rw [startCycle_eq]
      | idle | warmed _ _ | sampled _ _ _ | retried _ _ _ | exhausted _ _ _ => rfl
    · rfl
    · rw [move.eq]
  · rw [hp, List.tail_cons]

theorem step_cfg (h : step s = .next t) : t.cfg = s.cfg :=
  ((configuration_kept s.cfg s.outScript s.rxScript).step (fun _ same => same) ⟨rfl, rfl, rfl⟩ h).1

theorem mem_pending_of_step {r : Request} (h : step s = .next t) (hr : r ∈ t.pending) : r ∈ s.pending :=
  List.mem_of_mem_tail (step_pending h ▸ hr)

/-- What is presented is an instruction or an inbound sequence, a frame or not: no step on it is refused. -/
def State.PresentsNoOtherWord (s : State) : Prop :=
  ∀ r ∈ s.pending, (∃ i, decode s.cfg.opc r = .ok i) ∨ ∃ now b, r = .inbound now b

theorem State.PresentsNoOtherWord.step_answers (presents : s.PresentsNoOtherWord) : ∃ t, step s = .next t := by
  obtain answered | ⟨b, rest, why, hp, no_command, -⟩ := step_answers_or_refuses s
  · exact answered
  · obtain ⟨i, decoded⟩ | ⟨now, b', inbound⟩ := presents (.outbound b) (by rw [hp]; exact List.mem_cons_self)
    · cases decoded.symm.trans no_command
    · cases inbound

theorem State.PresentsNoOtherWord.of_step (presents : s.PresentsNoOtherWord) (h : step s = .next t) :
    t.PresentsNoOtherWord := by
  intro r hr
  rw [step_cfg h]
  exact presents r (mem_pending_of_step h hr)

theorem State.PresentsNoOtherWord.run_answers (presents : s.PresentsNoOtherWord) (n : Nat) :
    ∃ t, Sys2Proof.core.run n s = .next t := by
  induction n generalizing s with
  | zero => exact ⟨s, rfl⟩
  | succ n ih =>
    obtain ⟨u, stepped⟩ := presents.step_answers
    obtain ⟨t, ran⟩ := ih (presents.of_step stepped)
    exact ⟨t, (run_succ_of_step (M := Sys2Proof.core) stepped).trans ran⟩

end Sys2Proof.Machine
end

section
/-! PROOFS. The dead end: no part of a step but RESET leads out of it or changes a register or the history (R172,
R236). -/

namespace Sys2Proof.Machine

open Sys2Proof

/-- `t` is in the dead end, with the registers and the history of `s`. -/
def State.StaysDead (s t : State) : Prop := t.DeadEnd ∧ s.SameRegisters t ∧ t.history = s.history

theorem State.DeadEnd.staysDead {s : State} (hdead : s.DeadEnd) : s.StaysDead s :=
  ⟨hdead, ⟨rfl, rfl, rfl, rfl⟩, rfl⟩

/-- R172: in the dead end a TICK is IDLE. -/
theorem TickMove.eq_idle_of_deadEnd {now : Time} {s t : State} (move : TickMove now s t) (hdead : s.DeadEnd) :
    t = s.idle := by
  have hst := hdead.1
  cases move with
  | idle => rfl
  | started _ hg => exact absurd hg (hdead.not_gStart now)
  | warmed hst' _ => cases hst.symm.trans hst'
  | sampled hst' _ _ => cases hst.symm.trans hst'
  | retried hst' _ _ => cases hst.symm.trans hst'
  | exhausted hst' _ _ => cases hst.symm.trans hst'

theorem staysDead_kept (s : State) : KeptByMoves s.StaysDead where
  take _ dead := dead
  ports dead move := by cases move <;> exact dead
  tick dead move := by
    rw [move.eq_idle_of_deadEnd dead.1]
    exact dead

theorem staysDead_of_run {s t u : State} {n : Nat} (dead : s.StaysDead t)
    (no_reset : ∀ p, .host p ∈ t.pending → p.rst = false) (h : Sys2Proof.core.run n t = .next u) : s.StaysDead u := by
  induction n generalizing t with
  | zero =>
    obtain rfl : t = u := Host.Outcome.next.inj h
    exact dead
  | succ n ih =>
    obtain ⟨t', stepped, ran⟩ := exists_step_of_run_succ h
    obtain dead' | ⟨p, rest, hp, hrst⟩ := (staysDead_kept s).step_or_reset dead stepped
    · exact ih dead' (fun p hmem => no_reset p (mem_pending_of_step stepped hmem)) ran
    · have low := no_reset p (by rw [hp]; exact List.mem_cons_self)
      cases low.symm.trans hrst

end Sys2Proof.Machine
end

section
/-! PROOFS. A cycle all of whose attempts fail: the retry counter counts them up to the ceiling (R170, R171). -/

namespace Sys2Proof.Machine

open Sys2Proof

/-- A cycle before its first attempt, with a TICK presented for each attempt it may make, all of which fail. -/
structure FailingCycle (s : State) (nows : List Time) (rest : List Request) : Prop where
  st : s.st = .sampling
  retry : s.retry = 0
  pending : s.pending = nows.map tickRequest ++ rest
  ticks : nows.length = s.cfg.retryMax.toNat + 1
  fails : ∀ k ≤ s.cfg.retryMax.toNat, attemptError (s.rxAnswer (s.rxCalls + k)) ≠ none

/-- `t` is that cycle after `k` failed attempts. -/
structure AfterRetries (s : State) (nows : List Time) (rest : List Request) (k : Nat) (t : State) : Prop where
  st : t.st = .sampling
  retry : t.retry.toNat = k
  rxCalls : t.rxCalls = s.rxCalls + k
  lsa : t.lsa = s.lsa
  lto : t.lto = s.lto
  cfg : t.cfg = s.cfg
  rxScript : t.rxScript = s.rxScript
  pending : t.pending = (nows.drop k).map tickRequest ++ rest

theorem decode_tickRequest (rom : OpcodeRom) (now : Time) : decode rom (tickRequest now) = .ok (.tick now) :=
  congrArg _ (decodeHost_of_op_one rfl rfl)

variable {s t : State} {nows : List Time} {rest : List Request} {k : Nat}

theorem FailingCycle.afterRetries_zero (cycle : FailingCycle s nows rest) : AfterRetries s nows rest 0 s where
  st := cycle.st
  retry := by rw [cycle.retry]; rfl
  rxCalls := rfl
  lsa := rfl
  lto := rfl
  cfg := rfl
  rxScript := rfl
  pending := cycle.pending

/-- R167: the next step of the cycle is a TICK whose attempt fails. -/
theorem FailingCycle.next_attempt (cycle : FailingCycle s nows rest) (after : AfterRetries s nows rest k t)
    (hk : k ≤ s.cfg.retryMax.toNat) :
    ∃ now e, attemptError (t.rxAnswer t.rxCalls) = some e ∧
      step t = exec (.tick now) { t with pending := (nows.drop (k + 1)).map tickRequest ++ rest } := by
  have k_lt : k < nows.length := by
    rw [cycle.ticks]
    omega
  have answer_eq : t.rxAnswer t.rxCalls = s.rxAnswer (s.rxCalls + k) := by
    simp only [State.rxAnswer, after.rxScript, after.rxCalls]
  obtain ⟨e, failed⟩ := Option.ne_none_iff_exists'.mp (cycle.fails k hk)
  have presented : t.pending = tickRequest nows[k] :: ((nows.drop (k + 1)).map tickRequest ++ rest) := by
    rw [after.pending, List.drop_eq_getElem_cons k_lt]
    rfl
  exact ⟨nows[k], e, answer_eq ▸ failed, step_of_decode_ok presented (decode_tickRequest _ _)⟩

/-- R170: below the ceiling the attempt is counted. -/
theorem FailingCycle.step_retry (cycle : FailingCycle s nows rest) (after : AfterRetries s nows rest k t)
    (hk : k < s.cfg.retryMax.toNat) : ∃ u, step t = .next u ∧ AfterRetries s nows rest (k + 1) u := by
  obtain ⟨now, e, failed, ticked⟩ := cycle.next_attempt after hk.le
  have left : t.retry.toNat < t.cfg.retryMax.toNat := by rwa [after.retry, after.cfg]
  refine ⟨_, ticked.trans (exec_tick_of_error_retry after.st failed left), ?_⟩
  exact {
    st := rfl
    retry := (retry_succ_toNat left).trans (congrArg (· + 1) after.retry)
    rxCalls := congrArg (· + 1) after.rxCalls
    lsa := after.lsa
    lto := after.lto
    cfg := after.cfg
    rxScript := after.rxScript
    pending := rfl }

theorem FailingCycle.run_retries (cycle : FailingCycle s nows rest) (hk : k ≤ s.cfg.retryMax.toNat) :
    ∃ t, Sys2Proof.core.run k s = .next t ∧ AfterRetries s nows rest k t := by
  induction k with
  | zero => exact ⟨s, rfl, cycle.afterRetries_zero⟩
  | succ k ih =>
    obtain ⟨t, ran, after⟩ := ih (Nat.le_of_succ_le hk)
    obtain ⟨u, stepped, after'⟩ := cycle.step_retry after hk
    exact ⟨u, (run_succ_of_run ran).trans stepped, after'⟩

/-- R171: at the ceiling the cycle ends. -/
theorem FailingCycle.step_exhausted (cycle : FailingCycle s nows rest)
    (after : AfterRetries s nows rest s.cfg.retryMax.toNat t) :
    ∃ u e io, step t = .next u ∧ u.st = .dormant ∧ u.retry = 0 ∧
      u.rxCalls = s.rxCalls + s.cfg.retryMax.toNat + 1 ∧ u.lsa = s.lsa ∧ u.lto = s.lto ∧ u.pending = rest ∧
      u.result = .tick .failed (some e) io none := by
  obtain ⟨now, e, failed, ticked⟩ := cycle.next_attempt after le_rfl
  have none_left : ¬ t.retry.toNat < t.cfg.retryMax.toNat := by
    rw [after.retry, after.cfg]
    exact lt_irrefl _
  have all_taken : (nows.drop (s.cfg.retryMax.toNat + 1)).map tickRequest ++ rest = rest := by
    rw [← cycle.ticks, List.drop_length]
    rfl
  exact ⟨_, e, _, ticked.trans (exec_tick_of_error_exhausted after.st failed none_left), rfl, rfl,
    congrArg (· + 1) after.rxCalls, after.lsa, after.lto, all_taken, rfl⟩

end Sys2Proof.Machine
end

section
/-! PROOFS. The statements on the dead end, on whole cycles that fail, and on what RESET leaves. -/

namespace Sys2Proof.Proofs

open Sys2Proof Sys2Proof.Machine

/-- Settles O40: in the dead end each part of a step keeps it, a TICK because it is IDLE; RESET needs the reset input. -/
theorem deadEndLastsUntilReset : Obligations.DeadEndLastsUntilReset := by
  intro s t hdead no_reset hstep
  obtain dead | ⟨p, rest, hp, hrst⟩ := (staysDead_kept s).step_or_reset hdead.staysDead hstep
  · exact dead
  · cases (no_reset p rest hp).symm.trans hrst

/-- Settles O53: the TICK by its guard; the run by induction on its steps, each of which stays in the dead end; that it
answers because no step on such requests is refused. -/
theorem deadEndLastsForEver : Obligations.DeadEndLastsForEver := by
  refine ⟨fun s now hdead => hdead.exec_tick now, fun n s t hdead no_reset ran => ?_,
    fun n s _ _ presents => State.PresentsNoOtherWord.run_answers presents n⟩
  obtain ⟨-, same, history_eq⟩ := staysDead_of_run hdead.staysDead no_reset ran
  exact ⟨same, history_eq⟩

/-- Settles O41: the attempts below the ceiling by induction on their number, the last by exhaustion. -/
theorem failingCycleIsBounded : Obligations.FailingCycleIsBounded := by
  intro s nows rest hst hretry hp ticks fails
  have cycle : FailingCycle s nows rest := ⟨hst, hretry, hp, ticks, fails⟩
  constructor
  · intro k hk
    obtain ⟨t, ran, after⟩ := cycle.run_retries hk
    exact ⟨t, ran, after.st, after.retry, after.rxCalls, after.lsa, after.lto⟩
  · obtain ⟨t, ran, after⟩ := cycle.run_retries le_rfl
    obtain ⟨u, e, io, stepped, ended⟩ := cycle.step_exhausted after
    exact ⟨u, e, io, (run_succ_of_run ran).trans stepped, ended⟩

/-- Settles O43: RESET empties both buffers before it sends `INIT_SEQ`, and each command sent fills the transmit buffer
whole. -/
theorem resetDropsBuffers : Obligations.ResetDropsBuffers := by
  intro s t now0 hexec
  obtain rfl := eq_afterReset hexec
  refine ⟨fun _ => rfl, rfl, fun c last a => ?_, fun no_command a => ?_⟩
  · have holds_last : (s.afterReset now0).txb = Memory.fill (commandFrame s.cfg.opc c) := by
      simp only [State.afterReset, txbAfter, last]
    rw [holds_last, Memory.read_fill]
  · have empty : (s.afterReset now0).txb = [] := by simp only [State.afterReset, no_command, txbAfter_nil]
    rw [empty, Memory.read]

/-- Every invariant after a RESET, whose state has an empty cycle and whose events are those of `INIT_SEQ`. -/
theorem invariants_afterReset (s : State) (now0 : Time) :
    (s.afterReset now0).CycleInv ∧ (s.afterReset now0).BufferInv ∧ (s.afterReset now0).TimesUpTo now0 ∧
      (s.afterReset now0).SendsCommandsOnly ∧ (s.afterReset now0).RecordsAreReceivedFrames ∧
      (s.afterReset now0).CycleHistory :=
  ⟨cycleInv_afterReset now0 s, bufferInv_afterReset now0 s, timesUpTo_afterReset now0 s,
    sendsCommandsOnly_afterReset now0 s, recordsAreReceivedFrames_afterReset now0 s, cycleHistory_afterReset now0 s⟩

/-- Settles O44: each invariant after a RESET, and `State.reset` as the state a RESET at time 0 leaves it in. -/
theorem invariantsHoldAtReset : Obligations.InvariantsHoldAtReset := by
  constructor
  · intro s t now0 hexec
    rw [eq_afterReset hexec]
    exact invariants_afterReset s now0
  · have reset_again : State.reset = State.reset.afterReset 0 := rfl
    rw [reset_again]
    exact invariants_afterReset State.reset 0

/-- Settles O54: the state RESET leaves is a function of the fields it reads, and the answers are none of them. -/
theorem resetIgnoresTheAnswers : Obligations.ResetIgnoresTheAnswers := by
  intro s t now0 hexec
  obtain rfl := eq_afterReset hexec
  exact ⟨rfl, rfl, rfl, rfl, rfl, fun answers calls => exec_reset now0 _⟩

end Sys2Proof.Proofs
end
